-- ==== Sys2Proof/Config.lean ====
section
/-! DEFINITION. The parameters DESCORE fixes (00_scope.md R5). DESCORE has no open size parameter and the spec leaves
no result of an instruction undefined, so there is no free value here. The widths of the registers are in the types
of Word.lean and Machine/State.lean; the constant tables (10_state.md R35) are in Machine/Tables.lean. -/

namespace Sys2Proof.Config

/-- Rounds of one run (R5). -/
abbrev rounds : Nat := 16

/-- The width of a command word in bits: 4 of op and 64 of data (30_encoding.md R71). -/
abbrev commandBits : Nat := 68

/-- The most characters a quoted script operand may have (30_encoding.md R81). -/
abbrev maxTextChars : Nat := 8

/-- The most digits a hexadecimal script operand may have (30_encoding.md R81). -/
abbrev maxHexDigits : Nat := 16

end Sys2Proof.Config
end

