-- ==== Sys2Proof/Word.lean ====
section
/-! DEFINITION. The fixed-width values of DESCORE (00_scope.md R5, R7): every block is an unsigned bus value whose
most significant bit is DES bit 1. -/

namespace Sys2Proof

/-- A 64-bit block or key (R5). -/
abbrev Block := BitVec 64

/-- A 32-bit half of the round state (R5). -/
abbrev Half := BitVec 32

/-- A 48-bit subkey, and the width of the expanded half (R5). -/
abbrev Subkey := BitVec 48

/-- A 28-bit half of the key schedule (R5; 90_conflicts.md C3). -/
abbrev KeyHalf := BitVec 28

/-- The command word CW = cmd_op ++ cmd_data (30_encoding.md R71). -/
abbrev CommandWord := BitVec 68

/-- The opcode field (30_encoding.md R71). -/
abbrev Opcode := BitVec 4

/-- One byte of a block (20_memory.md R56). -/
abbrev Byte := BitVec 8

end Sys2Proof
end

