-- ==== Sys2Proof/Syntax.lean ====
section
/-! DEFINITION. The commands of DESCORE, one constructor per row of spec/opcode_table.json (30_encoding.md R73). Only
LDKEY and LDBLK carry data: the data field of every other command has no effect and is no part of the decoded
command (R76, R77). -/

namespace Sys2Proof

/-- A decoded command (30_encoding.md R73, R77). -/
inductive Instr where
  /-- op 0x0 (44_commands.md R193) -/
  | nop
  /-- op 0x1, the data field is the key (R194) -/
  | ldkey (key : Block)
  /-- op 0x2, the data field is the block (R195) -/
  | ldblk (blk : Block)
  /-- op 0x3 (R196) -/
  | clrerr
  /-- op 0x4 (R197) -/
  | enc
  /-- op 0x5 (R198) -/
  | dec
  /-- op 0x6, reserved (R200), and so on to 0xF -/
  | reserved6
  | reserved7
  | reserved8
  | reserved9
  | reservedA
  | reservedB
  | reservedC
  | reservedD
  | reservedE
  | reservedF
  deriving DecidableEq, Repr

end Sys2Proof
end

