-- ==== Sys2Proof/WellFormed.lean ====
section
/-! DEFINITION. Well-formedness. A command has nothing to check: its one operand has its width in its type
(30_encoding.md R72). What the spec does ask to be checked is the constant tables (20_memory.md R52) and the
operand literals of a host script (30_encoding.md R81). -/

namespace Sys2Proof

/-- Every term of `Instr` is well formed: the key and the block are 64 bits wide by construction, so the source's
InvalidLengthError cannot be stated (30_encoding.md R72, 60_exceptions.md R224). -/
def Instr.wf : Instr → Bool
  | .nop => true
  | .ldkey _ => true
  | .ldblk _ => true
  | .clrerr => true
  | .enc => true
  | .dec => true
  | .reserved6 => true
  | .reserved7 => true
  | .reserved8 => true
  | .reserved9 => true
  | .reservedA => true
  | .reservedB => true
  | .reservedC => true
  | .reservedD => true
  | .reservedE => true
  | .reservedF => true

/-- A permutation table from `n` bits to `m` bits is well formed when it has `m` entries, each at least 1 and at most
`n` (20_memory.md R52). -/
def tableWf (n m : Nat) (entries : List Nat) : Bool :=
  entries.length == m && entries.all fun t => decide (1 ≤ t) && decide (t ≤ n)

/-- A rotation table is well formed when it has one count of 1 or 2 for every round (40_permutation.md R110). -/
def shiftsWf (counts : List Nat) : Bool :=
  counts.length == Config.rounds && counts.all fun k => k == 1 || k == 2

/-- A hexadecimal script operand has 1 to 16 digits (30_encoding.md R81). -/
def hexDigitsWf (digits : List (BitVec 4)) : Bool :=
  decide (1 ≤ digits.length) && decide (digits.length ≤ Config.maxHexDigits)

/-- A quoted script operand has at most 8 characters (30_encoding.md R81). -/
def textCharsWf (codes : List Nat) : Bool :=
  decide (codes.length ≤ Config.maxTextChars)

end Sys2Proof
end

