-- ==== Sys2Proof/Machine/Tables.lean ====
section
/-! DEFINITION. The constant tables (20_memory.md R50, R51), each with the check of its shape and of its bounds made
once (R52). The contents are the spec's (40_permutation.md R104 to R110, 42_feistel_round.md R141), which takes them from
the DES standard and records their cross-check (95_test_vectors.md section 1.3; log entry 11). -/

namespace Sys2Proof.Machine

/-- A table that carries `n` bits to `m` bits: entry i names the DES bit of the input that becomes DES bit i of the
output, counted from 1 (40_permutation.md R100). The check is R52's: no lookup can leave its input. -/
structure PermTable (n m : Nat) where
  entries : List Nat
  wf : tableWf n m entries = true

/-- ROM_IP, the initial permutation (40_permutation.md R104). -/
def ipTable : PermTable 64 64 where
  entries :=
    [58, 50, 42, 34, 26, 18, 10,  2] ++
    [60, 52, 44, 36, 28, 20, 12,  4] ++
    [62, 54, 46, 38, 30, 22, 14,  6] ++
    [64, 56, 48, 40, 32, 24, 16,  8] ++
    [57, 49, 41, 33, 25, 17,  9,  1] ++
    [59, 51, 43, 35, 27, 19, 11,  3] ++
    [61, 53, 45, 37, 29, 21, 13,  5] ++
    [63, 55, 47, 39, 31, 23, 15,  7]
  wf := by decide

/-- ROM_FP, the final permutation, the inverse of IP (40_permutation.md R105). -/
def fpTable : PermTable 64 64 where
  entries :=
    [40,  8, 48, 16, 56, 24, 64, 32] ++
    [39,  7, 47, 15, 55, 23, 63, 31] ++
    [38,  6, 46, 14, 54, 22, 62, 30] ++
    [37,  5, 45, 13, 53, 21, 61, 29] ++
    [36,  4, 44, 12, 52, 20, 60, 28] ++
    [35,  3, 43, 11, 51, 19, 59, 27] ++
    [34,  2, 42, 10, 50, 18, 58, 26] ++
    [33,  1, 41,  9, 49, 17, 57, 25]
  wf := by decide

/-- ROM_E, the bit expansion (40_permutation.md R106). -/
def eTable : PermTable 32 48 where
  entries :=
    [32,  1,  2,  3,  4,  5] ++
    [ 4,  5,  6,  7,  8,  9] ++
    [ 8,  9, 10, 11, 12, 13] ++
    [12, 13, 14, 15, 16, 17] ++
    [16, 17, 18, 19, 20, 21] ++
    [20, 21, 22, 23, 24, 25] ++
    [24, 25, 26, 27, 28, 29] ++
    [28, 29, 30, 31, 32,  1]
  wf := by decide

/-- ROM_P, the round output permutation (40_permutation.md R107). -/
def pTable : PermTable 32 32 where
  entries :=
    [16,  7, 20, 21] ++
    [29, 12, 28, 17] ++
    [ 1, 15, 23, 26] ++
    [ 5, 18, 31, 10] ++
    [ 2,  8, 24, 14] ++
    [32, 27,  3,  9] ++
    [19, 13, 30,  6] ++
    [22, 11,  4, 25]
  wf := by decide

/-- ROM_PC1, key compression 1 (40_permutation.md R108). -/
def pc1Table : PermTable 64 56 where
  entries :=
    [57, 49, 41, 33, 25, 17,  9] ++
    [ 1, 58, 50, 42, 34, 26, 18] ++
    [10,  2, 59, 51, 43, 35, 27] ++
    [19, 11,  3, 60, 52, 44, 36] ++
    [63, 55, 47, 39, 31, 23, 15] ++
    [ 7, 62, 54, 46, 38, 30, 22] ++
    [14,  6, 61, 53, 45, 37, 29] ++
    [21, 13,  5, 28, 20, 12,  4]
  wf := by decide

/-- ROM_PC2, key compression 2 (40_permutation.md R109). -/
def pc2Table : PermTable 56 48 where
  entries :=
    [14, 17, 11, 24,  1,  5] ++
    [ 3, 28, 15,  6, 21, 10] ++
    [23, 19, 12,  4, 26,  8] ++
    [16,  7, 27, 20, 13,  2] ++
    [41, 52, 31, 37, 47, 55] ++
    [30, 40, 51, 45, 33, 48] ++
    [44, 49, 39, 56, 34, 53] ++
    [46, 42, 50, 36, 29, 32]
  wf := by decide

/-- ROM_SHIFTS, the rotation count of each round, rounds 1 to 16 (40_permutation.md R110). -/
def shiftTable : Vector Nat 16 :=
  #v[1, 1, 2, 2, 2, 2, 2, 2, 1, 2, 2, 2, 2, 2, 2, 1]

/-- ROM_SHIFTS[r] for round r = i + 1 (R110). -/
def shiftCount (i : Fin 16) : Nat := shiftTable[i]

/-- One S-box: 4 rows of 16 columns of 4-bit values (20_memory.md R50). -/
abbrev SBox := Vector (Vector (BitVec 4) 16) 4

/-- S1 (42_feistel_round.md R141). -/
def sbox1 : SBox :=
  #v[#v[14,  4, 13,  1,  2, 15, 11,  8,  3, 10,  6, 12,  5,  9,  0,  7],
     #v[ 0, 15,  7,  4, 14,  2, 13,  1, 10,  6, 12, 11,  9,  5,  3,  8],
     #v[ 4,  1, 14,  8, 13,  6,  2, 11, 15, 12,  9,  7,  3, 10,  5,  0],
     #v[15, 12,  8,  2,  4,  9,  1,  7,  5, 11,  3, 14, 10,  0,  6, 13]]

/-- S2 (42_feistel_round.md R141). -/
def sbox2 : SBox :=
  #v[#v[15,  1,  8, 14,  6, 11,  3,  4,  9,  7,  2, 13, 12,  0,  5, 10],
     #v[ 3, 13,  4,  7, 15,  2,  8, 14, 12,  0,  1, 10,  6,  9, 11,  5],
     #v[ 0, 14,  7, 11, 10,  4, 13,  1,  5,  8, 12,  6,  9,  3,  2, 15],
     #v[13,  8, 10,  1,  3, 15,  4,  2, 11,  6,  7, 12,  0,  5, 14,  9]]

/-- S3 (42_feistel_round.md R141). -/
def sbox3 : SBox :=
  #v[#v[10,  0,  9, 14,  6,  3, 15,  5,  1, 13, 12,  7, 11,  4,  2,  8],
     #v[13,  7,  0,  9,  3,  4,  6, 10,  2,  8,  5, 14, 12, 11, 15,  1],
     #v[13,  6,  4,  9,  8, 15,  3,  0, 11,  1,  2, 12,  5, 10, 14,  7],
     #v[ 1, 10, 13,  0,  6,  9,  8,  7,  4, 15, 14,  3, 11,  5,  2, 12]]

/-- S4 (42_feistel_round.md R141). -/
def sbox4 : SBox :=
  #v[#v[ 7, 13, 14,  3,  0,  6,  9, 10,  1,  2,  8,  5, 11, 12,  4, 15],
     #v[13,  8, 11,  5,  6, 15,  0,  3,  4,  7,  2, 12,  1, 10, 14,  9],
     #v[10,  6,  9,  0, 12, 11,  7, 13, 15,  1,  3, 14,  5,  2,  8,  4],
     #v[ 3, 15,  0,  6, 10,  1, 13,  8,  9,  4,  5, 11, 12,  7,  2, 14]]

/-- S5 (42_feistel_round.md R141). -/
def sbox5 : SBox :=
  #v[#v[ 2, 12,  4,  1,  7, 10, 11,  6,  8,  5,  3, 15, 13,  0, 14,  9],
     #v[14, 11,  2, 12,  4,  7, 13,  1,  5,  0, 15, 10,  3,  9,  8,  6],
     #v[ 4,  2,  1, 11, 10, 13,  7,  8, 15,  9, 12,  5,  6,  3,  0, 14],
     #v[11,  8, 12,  7,  1, 14,  2, 13,  6, 15,  0,  9, 10,  4,  5,  3]]

/-- S6 (42_feistel_round.md R141). -/
def sbox6 : SBox :=
  #v[#v[12,  1, 10, 15,  9,  2,  6,  8,  0, 13,  3,  4, 14,  7,  5, 11],
     #v[10, 15,  4,  2,  7, 12,  9,  5,  6,  1, 13, 14,  0, 11,  3,  8],
     #v[ 9, 14, 15,  5,  2,  8, 12,  3,  7,  0,  4, 10,  1, 13, 11,  6],
     #v[ 4,  3,  2, 12,  9,  5, 15, 10, 11, 14,  1,  7,  6,  0,  8, 13]]

/-- S7 (42_feistel_round.md R141). -/
def sbox7 : SBox :=
  #v[#v[ 4, 11,  2, 14, 15,  0,  8, 13,  3, 12,  9,  7,  5, 10,  6,  1],
     #v[13,  0, 11,  7,  4,  9,  1, 10, 14,  3,  5, 12,  2, 15,  8,  6],
     #v[ 1,  4, 11, 13, 12,  3,  7, 14, 10, 15,  6,  8,  0,  5,  9,  2],
     #v[ 6, 11, 13,  8,  1,  4, 10,  7,  9,  5,  0, 15, 14,  2,  3, 12]]

/-- S8 (42_feistel_round.md R141). -/
def sbox8 : SBox :=
  #v[#v[13,  2,  8,  4,  6, 15, 11,  1, 10,  9,  3, 14,  5,  0, 12,  7],
     #v[ 1, 15, 13,  8, 10,  3,  7,  4, 12,  5,  6, 11,  0, 14,  9,  2],
     #v[ 7, 11,  4,  1,  9, 12, 14,  2,  0,  6, 10, 13, 15,  3,  5,  8],
     #v[ 2,  1, 14,  7,  4, 10,  8, 13, 15, 12,  9,  0,  3,  5,  6, 11]]

/-- SBOX[1..8] (R141): position b of the vector is box b + 1. -/
def sboxes : Vector SBox 8 :=
  #v[sbox1, sbox2, sbox3, sbox4, sbox5, sbox6, sbox7, sbox8]

end Sys2Proof.Machine
end

