-- ==== Sys2Proof/Machine/Permutation.lean ====
section
/-! DEFINITION. The datapath primitives (40_permutation.md R100 to R102). They are combinational: they write no state,
set no flag and cannot fail, because tables and values carry their widths in their types (60_exceptions.md R224). -/

namespace Sys2Proof.Machine

/-- DES bit i of an n-bit value, i = 1..n, is bus bit n - i (00_scope.md R6, R7). -/
def desBit {n : Nat} (v : BitVec n) (i : Nat) : Bool := v.getMsbD (i - 1)

/-- DES bit i of `permute T v` is DES bit T[i] of v (R100). -/
def permute {n m : Nat} (T : PermTable n m) (v : BitVec n) : BitVec m :=
  (BitVec.ofBoolListBE (T.entries.map (desBit v))).cast <| by
    have h := T.wf
    simp only [tableWf, Bool.and_eq_true, beq_iff_eq] at h
    simpa using h.1

/-- rotl_28(v, k): the first k bits in sequence order wrap around to the end, 0 <= k <= 28 (R101, 00_scope.md R8). -/
def rotateLeft (v : KeyHalf) (k : Nat) : KeyHalf := (v <<< k) ||| (v >>> (28 - k))

/-- xor of two values of one width (R102). -/
def xorBits {n : Nat} (a b : BitVec n) : BitVec n := a ^^^ b

end Sys2Proof.Machine
end

