-- ==== Sys2Proof/Machine/Feistel.lean ====
section
/-! DEFINITION. The S-box lookup and the round function f (42_feistel_round.md R140 to R143). -/

namespace Sys2Proof.Machine

/-- The row of a 6-bit group: its first bit, then its last (R142). -/
def sboxRow (g : BitVec 6) : BitVec 2 := g.extractLsb' 5 1 ++ g.extractLsb' 0 1

/-- The column of a 6-bit group: bits 2 to 5 (R142). -/
def sboxCol (g : BitVec 6) : BitVec 4 := g.extractLsb' 1 4

/-- S_b(g) for box b + 1 (R142). -/
def sboxLookup (b : Fin 8) (g : BitVec 6) : BitVec 4 :=
  (sboxes[b][(sboxRow g).toNat]'(sboxRow g).isLt)[(sboxCol g).toNat]'(sboxCol g).isLt

/-- Group b + 1 of the 48-bit value: bus bits [53-6b' : 48-6b'] with b' = b + 1 (R143). -/
def sboxGroup (x : Subkey) (b : Fin 8) : BitVec 6 := x.extractLsb' (42 - 6 * b.val) 6

/-- The eight S-box outputs, group 1 first (R143). -/
def substitute (x : Subkey) : Half :=
  sboxLookup 0 (sboxGroup x 0) ++ sboxLookup 1 (sboxGroup x 1) ++
  sboxLookup 2 (sboxGroup x 2) ++ sboxLookup 3 (sboxGroup x 3) ++
  sboxLookup 4 (sboxGroup x 4) ++ sboxLookup 5 (sboxGroup x 5) ++
  sboxLookup 6 (sboxGroup x 6) ++ sboxLookup 7 (sboxGroup x 7)

/-- f(R, K) (R140, R143). -/
def f (r : Half) (k : Subkey) : Half :=
  permute pTable (substitute (xorBits (permute eTable r) k))

end Sys2Proof.Machine
end

