-- ==== Sys2Proof/Machine/State.lean ====
section
/-! DEFINITION. The architectural state of DESCORE (10_state.md R21), the host agent's remaining script, the reasons a
step can stop, and the state after reset (R38). -/

namespace Sys2Proof.Machine

/-- DIR: the direction of a run (10_state.md R28). -/
inductive Dir where
  /-- DIR = 0, written by ENC -/
  | encrypt
  /-- DIR = 1, written by DEC -/
  | decrypt
  deriving DecidableEq, Repr

/-- ERRCODE: the four codes that are ever produced (60_exceptions.md R221; log entry 6). -/
inductive ErrCode where
  /-- 0 NONE: no error -/
  | none
  /-- 1 ILLEGAL_CMD: an accepted command with a reserved op -/
  | illegalCmd
  /-- 2 NO_KEY: ENC or DEC while KEYV = 0 -/
  | noKey
  /-- 3 NO_BLOCK: ENC or DEC while KEYV = 1 and BLKV = 0 -/
  | noBlock
  deriving DecidableEq, Repr

/-- The kind of a trace entry (10_state.md R33). -/
inductive TraceKind where
  /-- 0 NONE: no snapshot -/
  | none
  /-- 1 INIT: "Initial Permutation" -/
  | init
  /-- 2 ROUND: "Round n" -/
  | round
  /-- 3 FINAL: "Final Permutation" -/
  | final
  deriving DecidableEq, Repr

/-- One entry of the trace buffer (10_state.md R33); a field that is absent for its kind is 0 (R34). -/
structure TraceEntry where
  kind : TraceKind
  idx : BitVec 5
  l : Half
  r : Half
  k : Subkey
  f : Half
  out : Block
  deriving DecidableEq, Repr

/-- NONE: no snapshot, every field 0 (R34). -/
def TraceEntry.empty : TraceEntry := ⟨.none, 0, 0, 0, 0, 0, 0⟩

/-- INIT(L_0, R_0) (R34). -/
def TraceEntry.ofInit (l r : Half) : TraceEntry := ⟨.init, 0, l, r, 0, 0, 0⟩

/-- ROUND(n, L_n, R_n, k, f) (R34). -/
def TraceEntry.ofRound (n : BitVec 5) (l r : Half) (k : Subkey) (f : Half) : TraceEntry :=
  ⟨.round, n, l, r, k, f, 0⟩

/-- FINAL(out), whose idx is 17 (R34). -/
def TraceEntry.ofFinal (out : Block) : TraceEntry := ⟨.final, 17, 0, 0, 0, 0, out⟩

/-- What the host drives on the input ports at one edge (30_encoding.md R70). -/
structure PortIn where
  rst : Bool
  cmdValid : Bool
  cmdOp : Opcode
  cmdData : Block
  trIdx : BitVec 5
  deriving DecidableEq, Repr

/-- A field of the STATUS word (10_state.md R31). -/
inductive StatusField where
  | busy | done | err | dir | errCode | keyv | blkv | stage
  deriving DecidableEq, Repr

/-- A field of a trace entry (10_state.md R33). -/
inductive TraceField where
  | kind | idx | l | r | k | f | out
  deriving DecidableEq, Repr

/-- What an EXPECT line may name (30_encoding.md R82). -/
inductive Observable where
  | status
  | statusField (fld : StatusField)
  | dout
  | trace (j : BitVec 5) (fld : TraceField)
  deriving DecidableEq, Repr

/-- One action of the host agent on the ports (30_encoding.md R70, R80, R82). -/
inductive HostAction where
  /-- drive these values at one edge, whatever comes of it (R70) -/
  | drive (p : PortIn)
  /-- offer a command with cmd_valid = 1 and hold it until it is accepted (R80, 70_reset_and_hazards.md R258) -/
  | offer (op : Opcode) (data : Block)
  /-- n steps with cmd_valid = 0 (R82) -/
  | idle (n : Nat)
  /-- hold cmd_valid = 0 while BUSY = 1; ends at the first sample with BUSY = 0 (R82) -/
  | waitDone
  /-- a host check of an output; it changes nothing and takes no step (R82) -/
  | expect (o : Observable) (value : Nat)
  deriving DecidableEq, Repr

/-- The state: the elements of 10_state.md R21, and what the host agent still has to do (R20; log entry 3). -/
structure State where
  /-- KEY (R23) -/
  key : Block
  /-- KEYV (R24) -/
  keyv : Bool
  /-- SK[0..15] (R29) -/
  sk : Vector Subkey 16
  /-- BLK (R25) -/
  blk : Block
  /-- BLKV (R25) -/
  blkv : Bool
  /-- L (R26) -/
  l : Half
  /-- R (R26) -/
  r : Half
  /-- DIR (R28) -/
  dir : Dir
  /-- STAGE, 0..17 (R27; log entry 6) -/
  stage : Fin 18
  /-- BUSY (R31, R32) -/
  busy : Bool
  /-- DONE (R31, R32) -/
  done : Bool
  /-- ERR (R31, R32) -/
  err : Bool
  /-- ERRCODE (R31, R32) -/
  errCode : ErrCode
  /-- DOUT (R30) -/
  dout : Block
  /-- TRACE[0..17] (R33, R34) -/
  trace : Vector TraceEntry 18
  /-- the host agent's remaining script: no element of DESCORE, which has no command queue
  (70_reset_and_hazards.md R257; log entry 3) -/
  host : List HostAction
  deriving DecidableEq, Repr

/-- The reasons a step can fault. -/
inductive Fault where
  /-- raised by a step from BUSY = 1 with STAGE = 0: the step performs a stage, and 44_commands.md R190 gives stages
  1 to 17 alone. No run reaches such a state (10_state.md R27). DEDUCED, safe; log entry 5. -/
  | busyWithoutStage
  deriving DecidableEq, Repr

/-- The reasons a step can be refused. -/
inductive Refusal where
  /-- raised by an arm of `exec` whose command has no meaning yet; none is left. Safe. -/
  | notModelled (mnemonic : String)
  deriving DecidableEq, Repr

/-- The machine right after reset (10_state.md R38, 70_reset_and_hazards.md R250). KEY, SK, BLK, L and R have no
reset value in the spec: 0 is a DESIGN CHOICE (log entry 1). The host has nothing to do yet (log entry 3). -/
def State.reset : State where
  key := 0
  keyv := false
  sk := Vector.replicate 16 0
  blk := 0
  blkv := false
  l := 0
  r := 0
  dir := .encrypt
  stage := 0
  busy := false
  done := false
  err := false
  errCode := .none
  dout := 0
  trace := Vector.replicate 18 TraceEntry.empty
  host := []

end Sys2Proof.Machine
end

