-- ==== Sys2Proof/Machine/Flags.lean ====
section
/-! DEFINITION. The STATUS word and the codes of its fields (10_state.md R31). STATUS is made of state elements and is
written by no command as a whole. -/

namespace Sys2Proof.Machine

/-- DIR as a bit: 0 encrypt, 1 decrypt (R28). -/
def Dir.bit : Dir → Bool
  | .encrypt => false
  | .decrypt => true

/-- ERRCODE as 4 bits (60_exceptions.md R221). -/
def ErrCode.bits : ErrCode → BitVec 4
  | .none => 0
  | .illegalCmd => 1
  | .noKey => 2
  | .noBlock => 3

/-- kind as 2 bits (10_state.md R33). -/
def TraceKind.bits : TraceKind → BitVec 2
  | .none => 0
  | .init => 1
  | .round => 2
  | .final => 3

/-- STAGE as 5 bits (10_state.md R27). -/
def stageBits (stage : Fin 18) : BitVec 5 := BitVec.ofNat 5 stage.val

/-- STATUS[15:0]: reserved 0, STAGE, BLKV, KEYV, ERRCODE, DIR, ERR, DONE, BUSY (R31). -/
def statusWord (s : State) : BitVec 16 :=
  0#1 ++ stageBits s.stage ++ BitVec.ofBool s.blkv ++ BitVec.ofBool s.keyv ++ s.errCode.bits ++
  BitVec.ofBool s.dir.bit ++ BitVec.ofBool s.err ++ BitVec.ofBool s.done ++ BitVec.ofBool s.busy

/-- A field of a STATUS word by its bit positions (R31). -/
def statusFieldOf (w : BitVec 16) : StatusField → Nat
  | .busy => (w.extractLsb' 0 1).toNat
  | .done => (w.extractLsb' 1 1).toNat
  | .err => (w.extractLsb' 2 1).toNat
  | .dir => (w.extractLsb' 3 1).toNat
  | .errCode => (w.extractLsb' 4 4).toNat
  | .keyv => (w.extractLsb' 8 1).toNat
  | .blkv => (w.extractLsb' 9 1).toNat
  | .stage => (w.extractLsb' 10 5).toNat

end Sys2Proof.Machine
end

