-- ==== Sys2Proof/Machine/HostAgent.lean ====
section
/-! DEFINITION. The host agent (10_state.md R20): what it drives on the input ports at the next edge, from its
remaining script and the STATUS.BUSY it samples before that edge (30_encoding.md R80, R82). -/

namespace Sys2Proof.Machine

/-- No reset and no command offered (44_commands.md R201). -/
def PortIn.quiet : PortIn := ⟨false, false, 0, 0, 0⟩

/-- One edge of reset: rst = 1 and cmd_valid = 0 (95_test_vectors.md section 3). -/
def PortIn.reset : PortIn := ⟨true, false, 0, 0, 0⟩

/-- A command offered with cmd_valid = 1 (30_encoding.md R70, R80); tr_idx has no effect at an edge (log entry 13). -/
def PortIn.command (op : Opcode) (data : Block) : PortIn := ⟨false, true, op, data, 0⟩

/-- The port values of the next edge, and the script that remains after it, from BUSY as sampled before the edge. An
offered command stays until the edge that accepts it (R80, 70_reset_and_hazards.md R257); WAITDONE holds cmd_valid = 0
while BUSY = 1 and takes no edge once BUSY = 0; EXPECT takes no edge (R82; log entry 7, DEDUCED). With nothing left the host is quiet (log entry 3). -/
def hostDrive (busy : Bool) : List HostAction → PortIn × List HostAction
  | [] => (.quiet, [])
  | .drive p :: rest => (p, rest)
  | .offer op data :: rest =>
    (.command op data, if busy then .offer op data :: rest else rest)
  | .idle 0 :: rest => hostDrive busy rest
  | .idle (n + 1) :: rest => (.quiet, .idle n :: rest)
  | .waitDone :: rest =>
    if busy then (.quiet, .waitDone :: rest) else hostDrive busy rest
  | .expect _ _ :: rest => hostDrive busy rest

/-- The EXPECT checks the host makes at this sample, before the next edge (R82). -/
def dueChecks (busy : Bool) : List HostAction → List (Observable × Nat)
  | .expect o v :: rest => (o, v) :: dueChecks busy rest
  | .idle 0 :: rest => dueChecks busy rest
  | .waitDone :: rest => if busy then [] else dueChecks busy rest
  | [] => []
  | .drive _ :: _ => []
  | .offer _ _ :: _ => []
  | .idle (_ + 1) :: _ => []

end Sys2Proof.Machine
end

