-- ==== Sys2Proof/Decode.lean ====
section
/-! DEFINITION. The decoder, total on command words (30_encoding.md R77), and the encoder, both written from the
opcode map (R73). A command word is not stored in any memory: it stands on the ports cmd_op and cmd_data, CW[67:64]
and CW[63:0] (R71). -/

namespace Sys2Proof

/-- The opcode field of a command word, CW[67:64] (R71). -/
def opField (cw : CommandWord) : Opcode := cw.extractLsb' 64 4

/-- The data field of a command word, CW[63:0] (R71). -/
def dataField (cw : CommandWord) : Block := cw.extractLsb' 0 64

/-- CW = cmd_op ++ cmd_data (R71). -/
def commandWord (op : Opcode) (data : Block) : CommandWord := op ++ data

/-- The opcode map: each of the 16 values of op selects exactly one row (R73), written bit by bit as the
opcode table's encodings are; data is read by LDKEY and LDBLK alone (R72, R76). -/
def decodeFields (op : Opcode) (data : Block) : Instr :=
  match op[3], op[2], op[1], op[0] with
  | false, false, false, false => .nop
  | false, false, false, true => .ldkey data
  | false, false, true, false => .ldblk data
  | false, false, true, true => .clrerr
  | false, true, false, false => .enc
  | false, true, false, true => .dec
  | false, true, true, false => .reserved6
  | false, true, true, true => .reserved7
  | true, false, false, false => .reserved8
  | true, false, false, true => .reserved9
  | true, false, true, false => .reservedA
  | true, false, true, true => .reservedB
  | true, true, false, false => .reservedC
  | true, true, false, true => .reservedD
  | true, true, true, false => .reservedE
  | true, true, true, true => .reservedF

/-- Every 68-bit command word decodes to exactly one command (R77). -/
def decode (cw : CommandWord) : Instr :=
  decodeFields (opField cw) (dataField cw)

/-- Why a number is no command word. -/
inductive DecodeError where
  /-- raised by `decodeWord` for a number of more than 68 bits: there is one instruction length (R71); safe -/
  | longerThanCommandWord
  deriving DecidableEq, Repr

/-- Decode a number as a command word; a number that does not fit the one 68-bit format is rejected by name
(R71). -/
def decodeWord (w : Nat) : Except DecodeError Instr :=
  if w < 2 ^ Config.commandBits then .ok (decode (BitVec.ofNat 68 w)) else .error .longerThanCommandWord

/-- The decoder on the host's numbering of the table's words: bit k of `w` is CW[k], and bits at or above `nbits`
are 0. -/
def decodeTableWord (nbits w : Nat) : Option Instr :=
  match decodeWord (w % 2 ^ nbits) with
  | .ok i => some i
  | .error _ => none

/-- The opcode of a command (R73). -/
def opcode : Instr → Opcode
  | .nop => 0x0#4
  | .ldkey _ => 0x1#4
  | .ldblk _ => 0x2#4
  | .clrerr => 0x3#4
  | .enc => 0x4#4
  | .dec => 0x5#4
  | .reserved6 => 0x6#4
  | .reserved7 => 0x7#4
  | .reserved8 => 0x8#4
  | .reserved9 => 0x9#4
  | .reservedA => 0xA#4
  | .reservedB => 0xB#4
  | .reservedC => 0xC#4
  | .reservedD => 0xD#4
  | .reservedE => 0xE#4
  | .reservedF => 0xF#4

/-- The data field of a command's canonical encoding: the operand, or 0 where there is none (R76; log entry
12). -/
def canonicalData : Instr → Block
  | .nop => 0
  | .ldkey key => key
  | .ldblk blk => blk
  | .clrerr => 0
  | .enc => 0
  | .dec => 0
  | .reserved6 => 0
  | .reserved7 => 0
  | .reserved8 => 0
  | .reserved9 => 0
  | .reservedA => 0
  | .reservedB => 0
  | .reservedC => 0
  | .reservedD => 0
  | .reservedE => 0
  | .reservedF => 0

/-- The canonical command word of a command (R73, R76). -/
def encode (i : Instr) : CommandWord :=
  commandWord (opcode i) (canonicalData i)

end Sys2Proof
end

