-- ==== Sys2Proof/Machine/Operands.lean ====
section
/-! DEFINITION. Operand forms: the data field taken whole as a key or a block (30_encoding.md R72), and the halves and
bytes of a block (20_memory.md R56). There is no immediate, register or address operand (R72, R55). -/

namespace Sys2Proof.Machine

/-- The left half, DES bits 1..32 of a block, bus bits [63:32] (R56, 43_cipher_engine.md R161). -/
def leftHalf (v : Block) : Half := v.extractLsb' 32 32

/-- The right half, DES bits 33..64 of a block, bus bits [31:0] (R56, R161). -/
def rightHalf (v : Block) : Half := v.extractLsb' 0 32

/-- C, DES bits 1..28 of the PC-1 output, bus bits [55:28] (R56, 41_key_schedule.md R121). -/
def cHalf (cd : BitVec 56) : KeyHalf := cd.extractLsb' 28 28

/-- D, DES bits 29..56 of the PC-1 output, bus bits [27:0] (R56, R121). -/
def dHalf (cd : BitVec 56) : KeyHalf := cd.extractLsb' 0 28

/-- Byte k of a block, k = 0..7, bus bits [63-8k : 56-8k]: byte 0 is the first character (R56). -/
def blockByte (v : Block) (k : Fin 8) : Byte := v.extractLsb' (56 - 8 * k.val) 8

/-- The operand of LDKEY: DES bit i of the key is cmd_data[64-i], the field whole (R72). -/
def keyOperand (data : Block) : Block := data

/-- The operand of LDBLK: DES bit i of the block is cmd_data[64-i], the field whole (R72). -/
def blockOperand (data : Block) : Block := data

end Sys2Proof.Machine
end

