-- ==== Sys2Proof/Machine/KeySchedule.lean ====
section
/-! DEFINITION. The key schedule and the selection of a round's key (41_key_schedule.md R120 to R125). It is a pure
function; C and D are held across no step (10_state.md R36). -/

namespace Sys2Proof.Machine

/-- (C_0, D_0): PC-1 and the split (R121). -/
def initialKeyHalves (key : Block) : KeyHalf × KeyHalf :=
  (cHalf (permute pc1Table key), dHalf (permute pc1Table key))

/-- Rotate both halves left by the count of round i + 1 (R122). -/
def rotateKeyHalves (i : Fin 16) (cd : KeyHalf × KeyHalf) : KeyHalf × KeyHalf :=
  (rotateLeft cd.1 (shiftCount i), rotateLeft cd.2 (shiftCount i))

/-- (C_n, D_n), n = 0..16: each round rotates the previous round's halves again (R122). -/
def keyHalves (key : Block) : (n : Nat) → n ≤ 16 → KeyHalf × KeyHalf
  | 0, _ => initialKeyHalves key
  | n + 1, h => rotateKeyHalves ⟨n, h⟩ (keyHalves key n (Nat.le_of_succ_le h))

/-- PC-2 of C ++ D (R122). -/
def compressKeyHalves (cd : KeyHalf × KeyHalf) : Subkey := permute pc2Table (cd.1 ++ cd.2)

/-- SK[i], the subkey that round i + 1 emits (R122). -/
def subkey (key : Block) (i : Fin 16) : Subkey := compressKeyHalves (keyHalves key (i.val + 1) i.isLt)

/-- KS(key): the sixteen subkeys in encryption order, whatever the direction (R120, R123). -/
def KS (key : Block) : Vector Subkey 16 := Vector.ofFn (subkey key)

/-- roundKey(DIR, r) for round r = i + 1: SK[r-1] to encrypt, SK[16-r] to decrypt (R125). -/
def roundKey (d : Dir) (sk : Vector Subkey 16) (i : Fin 16) : Subkey :=
  match d with
  | .encrypt => sk[i]
  | .decrypt => sk[i.rev]

end Sys2Proof.Machine
end

