-- ==== Sys2Proof/Machine/Ops.lean ====
section
/-! DEFINITION. The operations the commands and the step share: the error effect and its clearing, reset, the stages of
a run, the start of a run, and the arbitration of one edge. -/

namespace Sys2Proof.Machine

/-- raise Error(code): the first error is kept, and nothing else changes. DESCORE has no trap: no vector, no saved
state, no mode change (60_exceptions.md R226, R230). -/
def raiseError (code : ErrCode) (s : State) : State :=
  if s.err then s else { s with err := true, errCode := code }

/-- ERR and ERRCODE cleared: what CLRERR does, the one way back from an error beside reset (60_exceptions.md R227,
44_commands.md R196). -/
def clearError (s : State) : State := { s with err := false, errCode := .none }

/-- The effect of an edge with rst = 1: every element takes its reset value; the host's script is no element
(70_reset_and_hazards.md R250, R251). -/
def resetEdge (s : State) : State := { State.reset with host := s.host }

/-- The Feistel step on a pair of halves with a given f-output: L takes the old R, and R takes the old L XOR f
(43_cipher_engine.md R162). -/
def feistelSwap (l r fo : Half) : Half × Half := (r, xorBits l fo)

/-- The IP stage (43_cipher_engine.md R165). -/
def ipStage (s : State) : State :=
  let ip := permute ipTable s.blk
  { s with
    l := leftHalf ip
    r := rightHalf ip
    trace := s.trace.set 0 (.ofInit (leftHalf ip) (rightHalf ip)) }

/-- The round stage of round i + 1 (43_cipher_engine.md R166). -/
def roundStage (i : Fin 16) (s : State) : State :=
  let k := roundKey s.dir s.sk i
  let fo := f s.r k
  let lr := feistelSwap s.l s.r fo
  { s with
    l := lr.1
    r := lr.2
    trace := s.trace.set (i.val + 1) (.ofRound (BitVec.ofNat 5 (i.val + 1)) lr.1 lr.2 k fo)
    stage := ⟨i.val + 2, Nat.add_lt_add_right i.isLt 2⟩ }

/-- The FP stage (43_cipher_engine.md R167); the pre-output is R ++ L, the right half first (R163). -/
def fpStage (s : State) : State :=
  let out := permute fpTable (s.r ++ s.l)
  { s with
    dout := out
    trace := s.trace.set 17 (.ofFinal out)
    busy := false
    done := true
    stage := 0 }

/-- The stage a busy step performs (44_commands.md R190): 1 to 16 are the rounds, 17 is the final permutation. Stage 0
is performed only by the step that accepts a start (10_state.md R27): no busy step has it (log entry 5). -/
def performStage (s : State) : Host.Outcome State Fault Refusal :=
  if h0 : s.stage.val = 0 then .fault .busyWithoutStage
  else if h : s.stage.val ≤ 16 then .next (roundStage ⟨s.stage.val - 1, by omega⟩ s)
  else .next (fpStage s)

/-- The updates of an accepted start in direction d, with the IP stage in the same step (44_commands.md R197, R198). -/
def beginRun (d : Dir) (s : State) : State :=
  ipStage { s with
    dir := d
    done := false
    busy := true
    stage := 1
    trace := Vector.replicate 18 TraceEntry.empty }

/-- The start check of ENC and DEC, KEYV before BLKV, then the start (44_commands.md R197 to R199). -/
def startRun (d : Dir) (s : State) : State :=
  if s.keyv = false then raiseError .noKey s
  else if s.blkv = false then raiseError .noBlock s
  else beginRun d s

/-- The case of 44_commands.md R190 that applies at an edge. -/
inductive EdgeCase where
  /-- rst = 1 -/
  | reset
  /-- rst = 0 and BUSY = 1 -/
  | stage
  /-- rst = 0, BUSY = 0 and cmd_valid = 1 -/
  | accept (i : Instr)
  /-- none of these -/
  | idle
  deriving DecidableEq, Repr

/-- Which case applies, tested in this order (44_commands.md R190, 60_exceptions.md R228). -/
def arbitrate (p : PortIn) (busy : Bool) : EdgeCase :=
  if p.rst then .reset
  else if busy then .stage
  else if p.cmdValid then .accept (decode (commandWord p.cmdOp p.cmdData))
  else .idle

/-- The host's next action is to offer the command word that the number `w` is, at a machine that can accept it at the
next edge: no run is in progress (10_state.md R37; log entry 4). -/
def offerWord (w : Nat) (s : State) : State :=
  let cw : CommandWord := BitVec.ofNat 68 w
  { s with
    busy := false
    stage := 0
    host := .offer (opField cw) (dataField cw) :: s.host }

end Sys2Proof.Machine
end

