-- ==== Sys2Proof/Machine/Load.lean ====
section
/-! DEFINITION. NOP, the loads and CLRERR (44_commands.md R193 to R196). -/

namespace Sys2Proof.Machine

/-- NOP: no state element changes (R193). -/
def execNop (s : State) : Host.Outcome State Fault Refusal := .next s

/-- LDKEY: KEY, all of SK, and KEYV, in the accepting step (R194). -/
def execLdkey (data : Block) (s : State) : Host.Outcome State Fault Refusal :=
  .next { s with key := keyOperand data, sk := KS (keyOperand data), keyv := true }

/-- LDBLK: BLK and BLKV (R195). -/
def execLdblk (data : Block) (s : State) : Host.Outcome State Fault Refusal :=
  .next { s with blk := blockOperand data, blkv := true }

/-- CLRERR: ERR and ERRCODE (R196). -/
def execClrerr (s : State) : Host.Outcome State Fault Refusal := .next (clearError s)

end Sys2Proof.Machine
end

