-- ==== Sys2Proof/Machine/Reserved.lean ====
section
/-! DEFINITION. The reserved op values 0x6 to 0xF: each raises Error(ILLEGAL_CMD) when accepted and changes nothing else
(44_commands.md R200, 30_encoding.md R75). -/

namespace Sys2Proof.Machine

/-- op 0x6 (R200). -/
def execReserved6 (s : State) : Host.Outcome State Fault Refusal := .next (raiseError .illegalCmd s)

/-- op 0x7 (R200). -/
def execReserved7 (s : State) : Host.Outcome State Fault Refusal := .next (raiseError .illegalCmd s)

/-- op 0x8 (R200). -/
def execReserved8 (s : State) : Host.Outcome State Fault Refusal := .next (raiseError .illegalCmd s)

/-- op 0x9 (R200). -/
def execReserved9 (s : State) : Host.Outcome State Fault Refusal := .next (raiseError .illegalCmd s)

/-- op 0xA (R200). -/
def execReservedA (s : State) : Host.Outcome State Fault Refusal := .next (raiseError .illegalCmd s)

/-- op 0xB (R200). -/
def execReservedB (s : State) : Host.Outcome State Fault Refusal := .next (raiseError .illegalCmd s)

/-- op 0xC (R200). -/
def execReservedC (s : State) : Host.Outcome State Fault Refusal := .next (raiseError .illegalCmd s)

/-- op 0xD (R200). -/
def execReservedD (s : State) : Host.Outcome State Fault Refusal := .next (raiseError .illegalCmd s)

/-- op 0xE (R200). -/
def execReservedE (s : State) : Host.Outcome State Fault Refusal := .next (raiseError .illegalCmd s)

/-- op 0xF (R200). -/
def execReservedF (s : State) : Host.Outcome State Fault Refusal := .next (raiseError .illegalCmd s)

end Sys2Proof.Machine
end

