-- ==== Sys2Proof/Machine/Start.lean ====
section
/-! DEFINITION. The starts of a run (44_commands.md R197 to R199). -/

namespace Sys2Proof.Machine

/-- ENC (R197). -/
def execEnc (s : State) : Host.Outcome State Fault Refusal := .next (startRun .encrypt s)

/-- DEC (R198). -/
def execDec (s : State) : Host.Outcome State Fault Refusal := .next (startRun .decrypt s)

end Sys2Proof.Machine
end

