-- ==== Sys2Proof/Machine/Step.lean ====
section
/-! DEFINITION. One step: one rising edge of clk (10_state.md R20, 44_commands.md R190). -/

namespace Sys2Proof.Machine

/-- The step of the datapath for the port values of one edge (44_commands.md R190). -/
def edge (p : PortIn) (s : State) : Host.Outcome State Fault Refusal :=
  match arbitrate p s.busy with
  | .reset => .next (resetEdge s)
  | .stage => performStage s
  | .accept i => exec i s
  | .idle => .next s

/-- One step of both agents (10_state.md R20): the host drives the ports for this edge, then the datapath moves. -/
def step (s : State) : Host.Outcome State Fault Refusal :=
  edge (hostDrive s.busy s.host).1 { s with host := (hostDrive s.busy s.host).2 }

/-- The steps of the datapath for the port values of consecutive edges, stopping at the first fault or refusal. -/
def edges : List PortIn → State → Host.Outcome State Fault Refusal
  | [], s => .next s
  | p :: ps, s =>
    match edge p s with
    | .next t => edges ps t
    | .fault r => .fault r
    | .refused r => .refused r

/-- The command word `w`, numbered as the opcode table numbers it, placed so that the next step accepts it: offered by
the host at an idle machine (log entry 4). -/
def State.withFetchWord (s : State) (nbits w : Nat) : State :=
  offerWord (w % 2 ^ nbits) s

end Sys2Proof.Machine
end

