-- ==== Sys2Proof/Machine/HostText.lean ====
section
/-! DEFINITION. The host-side conversions (30_encoding.md R84 to R86), which are no part of the hardware: they fix how
strings become operands and how results are shown. -/

namespace Sys2Proof.Machine

/-- What a host-side converter can fail with (60_exceptions.md R224). -/
inductive ConvertError where
  /-- a bit count that is no multiple of 4, or of 8 (30_encoding.md R85, R86) -/
  | invalidLength
  deriving DecidableEq, Repr

/-- c_k: the low 8 bits of the code of character k, or 0x00 past the end (R84). -/
def charByte (codes : List Nat) (k : Nat) : Byte := BitVec.ofNat 8 (codes.getD k 0)

/-- textToBits(s) = c_0 ++ ... ++ c_7; characters past the eighth are dropped (R84). -/
def textToBits (codes : List Nat) : Block :=
  charByte codes 0 ++ charByte codes 1 ++ charByte codes 2 ++ charByte codes 3 ++
  charByte codes 4 ++ charByte codes 5 ++ charByte codes 6 ++ charByte codes 7

/-- The bits of a value in sequence order: DES bit 1 first (00_scope.md R6). -/
def bitSequence {n : Nat} (v : BitVec n) : List Bool :=
  (List.range n).map fun p => desBit v (p + 1)

/-- A group of bits as a number, the first bit the most significant (R10, R85). -/
def groupValue (bits : List Bool) : Nat := bits.foldl (fun acc b => 2 * acc + b.toNat) 0

/-- The uppercase hex digit of a nibble (R10). -/
def hexDigit (n : Nat) : Char :=
  if n < 10 then Char.ofNat (48 + n) else Char.ofNat (55 + n)

/-- bitsToHex: nibbles in order, each one uppercase hex digit (R85). -/
def bitsToHex : List Bool → Except ConvertError (List Char)
  | [] => .ok []
  | a :: b :: c :: d :: rest =>
    match bitsToHex rest with
    | .ok cs => .ok (hexDigit (groupValue [a, b, c, d]) :: cs)
    | .error e => .error e
  | _ => .error .invalidLength

/-- bitsToAscii: bytes in order, each one character code (R86). -/
def bitsToAscii : List Bool → Except ConvertError (List Nat)
  | [] => .ok []
  | a :: b :: c :: d :: e :: f :: g :: h :: rest =>
    match bitsToAscii rest with
    | .ok cs => .ok (groupValue [a, b, c, d, e, f, g, h] :: cs)
    | .error err => .error err
  | _ => .error .invalidLength

/-- The text label of a trace entry, a host rendering of (kind, idx) (10_state.md R33, 20_memory.md R59). They give NONE no
label: the empty string is a DESIGN CHOICE, safe (log entry 14). -/
def traceLabel (e : TraceEntry) : String :=
  match e.kind with
  | .none => ""
  | .init => "Initial Permutation"
  | .round => "Round " ++ toString e.idx.toNat
  | .final => "Final Permutation"

end Sys2Proof.Machine
end

