-- ==== Sys2Proof/Machine/Ports.lean ====
section
/-! DEFINITION. The output ports (30_encoding.md R70): functions of the state and of the inputs rst and tr_idx, with no
state of their own and no side effect (10_state.md R37). -/

namespace Sys2Proof.Machine

/-- The values of the output ports (R70). -/
structure PortOut where
  cmdReady : Bool
  status : BitVec 16
  dout : Block
  trKind : BitVec 2
  trIdxO : BitVec 5
  trL : Half
  trR : Half
  trK : Subkey
  trF : Half
  trOut : Block
  deriving DecidableEq, Repr

/-- The entry the trace port shows: TRACE[j] for j of 0..17, NONE for 18..31 (R37, 20_memory.md R53). -/
def traceAt (s : State) (j : BitVec 5) : TraceEntry :=
  if h : j.toNat < 18 then s.trace[j.toNat] else .empty

/-- cmd_ready = (BUSY = 0) AND (rst = 0) (R37). -/
def cmdReady (p : PortIn) (s : State) : Bool := !s.busy && !p.rst

/-- All output ports (R37). -/
def outputs (p : PortIn) (s : State) : PortOut :=
  let e := traceAt s p.trIdx
  { cmdReady := cmdReady p s
    status := statusWord s
    dout := s.dout
    trKind := e.kind.bits
    trIdxO := e.idx
    trL := e.l
    trR := e.r
    trK := e.k
    trF := e.f
    trOut := e.out }

/-- A field of the shown trace entry, as the trace port gives it (R37). -/
def PortOut.traceField (o : PortOut) : TraceField → Nat
  | .kind => o.trKind.toNat
  | .idx => o.trIdxO.toNat
  | .l => o.trL.toNat
  | .r => o.trR.toNat
  | .k => o.trK.toNat
  | .f => o.trF.toNat
  | .out => o.trOut.toNat

/-- What the host reads for an EXPECT line (30_encoding.md R82), through the ports alone: to read trace[j] it drives
tr_idx = j between two steps (20_memory.md R53). -/
def Observable.read (o : Observable) (s : State) : Nat :=
  match o with
  | .status => (outputs .quiet s).status.toNat
  | .statusField fld => statusFieldOf (outputs .quiet s).status fld
  | .dout => (outputs .quiet s).dout.toNat
  | .trace j fld => (outputs { PortIn.quiet with trIdx := j } s).traceField fld

/-- Whether every EXPECT check that is due at this sample holds (R82; log entry 8). -/
def expectsHold (s : State) : Bool :=
  (dueChecks s.busy s.host).all fun c => c.1.read s == c.2

end Sys2Proof.Machine
end

