-- ==== Sys2Proof/Machine/Script.lean ====
section
/-! DEFINITION. Host scripts (30_encoding.md R80 to R83): the lines, their operands, and the actions of the host agent
that each line stands for. -/

namespace Sys2Proof.Machine

/-- An operand literal (R81). -/
inductive Operand64 where
  /-- a hexadecimal numeral, its digits from the left -/
  | hex (digits : List (BitVec 4))
  /-- a double-quoted string, as character codes -/
  | text (codes : List Nat)
  deriving DecidableEq, Repr

/-- One line of a host script (R80). RST is the line of 95_test_vectors.md section 3. -/
inductive ScriptLine where
  | nop
  | ldkey (o : Operand64)
  | ldblk (o : Operand64)
  | clrerr
  | enc
  | dec
  | cmd (op : Opcode) (o : Operand64)
  | idle (n : Nat)
  | waitdone
  | encrypt (key blk : Operand64)
  | decrypt (key blk : Operand64)
  | expect (o : Observable) (value : Nat)
  | rst
  deriving DecidableEq, Repr

/-- Why a script does not assemble. -/
inductive ScriptError where
  /-- a hexadecimal operand without a digit or with more than 16 (R81) -/
  | badDigitCount
  /-- a quoted operand of more than 8 characters (R81) -/
  | textTooLong
  /-- the first word of a line is none of R80's -/
  | unknownLine
  /-- the number of operands is not the one R80 gives the line -/
  | wrongOperands
  /-- an operand is not of the form R80 to R82 give it -/
  | malformedOperand
  deriving DecidableEq, Repr

/-- The check of an operand literal (R81). -/
def Operand64.wf : Operand64 → Bool
  | .hex digits => hexDigitsWf digits
  | .text codes => textCharsWf codes

/-- The value of an operand literal: a numeral zero-extended to 64 bits, or textToBits of a string (R81). -/
def Operand64.value : Operand64 → Except ScriptError Block
  | .hex digits =>
    if hexDigitsWf digits then
      .ok (BitVec.ofNat 64 (digits.foldl (fun acc d => 16 * acc + d.toNat) 0))
    else .error .badDigitCount
  | .text codes =>
    if textCharsWf codes then .ok (textToBits codes) else .error .textTooLong

/-- One offered command with an operand literal (R80). -/
def offerOperand (op : Opcode) (o : Operand64) : Except ScriptError (List HostAction) :=
  match o.value with
  | .ok data => .ok [.offer op data]
  | .error e => .error e

/-- LDKEY k, LDBLK b, the start, WAITDONE: the expansion of ENCRYPT and DECRYPT (R82). -/
def runActions (start : Opcode) (key blk : Operand64) : Except ScriptError (List HostAction) :=
  match key.value, blk.value with
  | .ok k, .ok b => .ok [.offer 0x1 k, .offer 0x2 b, .offer start 0, .waitDone]
  | .error e, _ => .error e
  | _, .error e => .error e

/-- The host's actions for one line (R80, R82); commands without an operand are offered in their canonical encoding
(R76). -/
def ScriptLine.actions : ScriptLine → Except ScriptError (List HostAction)
  | .nop => .ok [.offer 0x0 0]
  | .ldkey o => offerOperand 0x1 o
  | .ldblk o => offerOperand 0x2 o
  | .clrerr => .ok [.offer 0x3 0]
  | .enc => .ok [.offer 0x4 0]
  | .dec => .ok [.offer 0x5 0]
  | .cmd op o => offerOperand op o
  | .idle n => .ok [.idle n]
  | .waitdone => .ok [.waitDone]
  | .encrypt key blk => runActions 0x4 key blk
  | .decrypt key blk => runActions 0x5 key blk
  | .expect o value => .ok [.expect o value]
  | .rst => .ok [.drive .reset]

/-- The host's actions for a script: its lines in order (R80). -/
def scriptActions : List ScriptLine → Except ScriptError (List HostAction)
  | [] => .ok []
  | line :: rest =>
    match line.actions, scriptActions rest with
    | .ok a, .ok as => .ok (a ++ as)
    | .error e, _ => .error e
    | _, .error e => .error e

/-- A script placed before the host's remaining actions. -/
def State.withScript (s : State) (actions : List HostAction) : State :=
  { s with host := actions ++ s.host }

/-- The hex digits of a value whose width is a multiple of 4 (00_scope.md R10). -/
def hexText {n : Nat} (v : BitVec n) : List Char :=
  match bitsToHex (bitSequence v) with
  | .ok cs => cs
  | .error _ => []

/-- The listing notation of a command word, o:dddddddddddddddd (R83). -/
def listing (cw : CommandWord) : List Char :=
  hexText (opField cw) ++ ':' :: hexText (dataField cw)

end Sys2Proof.Machine
end

