-- ==== Sys2Proof/Machine/Assembler.lean ====
section
/-! DEFINITION. The text of host scripts (30_encoding.md R80 to R82): one action a line, blank lines and ';' comments
ignored. What the spec leaves open of the text is log entry 10. -/

namespace Sys2Proof.Machine

/-- The double quote that opens and closes a string operand (R81). -/
def quoteChar : Char := Char.ofNat 34

/-- A space, a tab or a carriage return. -/
def isBlank (c : Char) : Bool := c == ' ' || c == Char.ofNat 9 || c == Char.ofNat 13

/-- Text without blanks at its ends. -/
def trimBlanks (cs : List Char) : List Char :=
  ((cs.dropWhile isBlank).reverse.dropWhile isBlank).reverse

/-- Text up to a ';' that stands outside quotes (R80). -/
def dropComment (quoted : Bool) : List Char → List Char
  | [] => []
  | c :: cs =>
    if c == ';' && !quoted then []
    else c :: dropComment (if c == quoteChar then !quoted else quoted) cs

/-- The pieces of a text between the marks that stand outside quotes. -/
def splitOutsideQuotes (mark : Char) (quoted : Bool) : List Char → List (List Char)
  | [] => [[]]
  | c :: cs =>
    if c == mark && !quoted then [] :: splitOutsideQuotes mark quoted cs
    else
      match splitOutsideQuotes mark (if c == quoteChar then !quoted else quoted) cs with
      | piece :: pieces => (c :: piece) :: pieces
      | [] => [[c]]

/-- The value of a hex digit of either case. -/
def hexDigitValue (c : Char) : Option (BitVec 4) :=
  let n := c.toNat
  if 48 ≤ n ∧ n ≤ 57 then some (BitVec.ofNat 4 (n - 48))
  else if 65 ≤ n ∧ n ≤ 70 then some (BitVec.ofNat 4 (n - 55))
  else if 97 ≤ n ∧ n ≤ 102 then some (BitVec.ofNat 4 (n - 87))
  else none

/-- The digits of a text that holds hex digits alone. -/
def hexDigits : List Char → Option (List (BitVec 4))
  | [] => some []
  | c :: cs =>
    match hexDigitValue c, hexDigits cs with
    | some d, some ds => some (d :: ds)
    | _, _ => none

/-- The value of a decimal numeral. -/
def decimalValue (cs : List Char) : Option Nat :=
  if cs.isEmpty then none
  else if cs.all fun c => decide (48 ≤ c.toNat) && decide (c.toNat ≤ 57) then
    some (cs.foldl (fun acc c => 10 * acc + (c.toNat - 48)) 0)
  else none

/-- A hexadecimal numeral without its 0x, where it has one (R81). -/
def drop0x : List Char → List Char
  | '0' :: 'x' :: cs => cs
  | cs => cs

/-- A numeral of IDLE, of a trace index or of an EXPECT value: hexadecimal after 0x, else decimal. R80 and R82 give these
no base; that they are read as 00_scope.md R10 writes numerals is a DESIGN CHOICE, safe (log entry 10). -/
def numeralValue : List Char → Option Nat
  | '0' :: 'x' :: cs =>
    match hexDigits cs with
    | some (d :: ds) => some ((d :: ds).foldl (fun acc x => 16 * acc + x.toNat) 0)
    | _ => none
  | cs => decimalValue cs

/-- An operand literal: a quoted string or a hexadecimal numeral (R81). R81 gives no way to write a double quote inside
a string: an operand with one inside is malformed, DESIGN CHOICE, safe (log entry 10). -/
def parseOperand (cs : List Char) : Except ScriptError Operand64 :=
  match cs with
  | c :: rest =>
    if c == quoteChar then
      match rest.reverse with
      | q :: inner =>
        if q == quoteChar && !inner.contains quoteChar then
          .ok (.text (inner.reverse.map Char.toNat))
        else .error .malformedOperand
      | [] => .error .malformedOperand
    else
      match hexDigits (drop0x cs) with
      | some ds => .ok (.hex ds)
      | none => .error .malformedOperand
  | [] => .error .malformedOperand

/-- The field names of STATUS as 10_state.md R31 writes them. R82 lists no field names; that bit 15, which R31 calls
reserved, is no field an EXPECT line can name is a DESIGN CHOICE, safe (log entry 10). -/
def parseStatusField (cs : List Char) : Option StatusField :=
  if cs == ['B', 'U', 'S', 'Y'] then some .busy
  else if cs == ['D', 'O', 'N', 'E'] then some .done
  else if cs == ['E', 'R', 'R'] then some .err
  else if cs == ['D', 'I', 'R'] then some .dir
  else if cs == ['E', 'R', 'R', 'C', 'O', 'D', 'E'] then some .errCode
  else if cs == ['K', 'E', 'Y', 'V'] then some .keyv
  else if cs == ['B', 'L', 'K', 'V'] then some .blkv
  else if cs == ['S', 'T', 'A', 'G', 'E'] then some .stage
  else none

/-- The field names of a trace entry as 10_state.md R33 writes them. -/
def parseTraceField (cs : List Char) : Option TraceField :=
  if cs == ['k', 'i', 'n', 'd'] then some .kind
  else if cs == ['i', 'd', 'x'] then some .idx
  else if cs == ['l'] then some .l
  else if cs == ['r'] then some .r
  else if cs == ['k'] then some .k
  else if cs == ['f'] then some .f
  else if cs == ['o', 'u', 't'] then some .out
  else none

/-- The part of an observable after "trace[": an index of 0..31, "]." and a field name (R82). -/
def parseTraceObservable (cs : List Char) : Option Observable :=
  match numeralValue (cs.takeWhile (· != ']')), cs.dropWhile (· != ']') with
  | some j, ']' :: '.' :: fld =>
    if j < 32 then (parseTraceField fld).map (.trace (BitVec.ofNat 5 j)) else none
  | _, _ => none

/-- What an EXPECT line names: status, status.<field>, dout or trace[j].<field> (R82). -/
def parseObservable : List Char → Option Observable
  | ['s', 't', 'a', 't', 'u', 's'] => some .status
  | 's' :: 't' :: 'a' :: 't' :: 'u' :: 's' :: '.' :: fld => (parseStatusField fld).map .statusField
  | ['d', 'o', 'u', 't'] => some .dout
  | 't' :: 'r' :: 'a' :: 'c' :: 'e' :: '[' :: rest => parseTraceObservable rest
  | _ => none

/-- A line without operands (R80). -/
def lineOf0 (line : ScriptLine) : List (List Char) → Except ScriptError ScriptLine
  | [] => .ok line
  | _ :: _ => .error .wrongOperands

/-- A line with one operand literal (R80). -/
def lineOf1 (line : Operand64 → ScriptLine) : List (List Char) → Except ScriptError ScriptLine
  | [a] =>
    match parseOperand a with
    | .ok x => .ok (line x)
    | .error e => .error e
  | _ => .error .wrongOperands

/-- A line with two operand literals (R80). -/
def lineOf2 (line : Operand64 → Operand64 → ScriptLine) :
    List (List Char) → Except ScriptError ScriptLine
  | [a, b] =>
    match parseOperand a, parseOperand b with
    | .ok x, .ok y => .ok (line x y)
    | .error e, _ => .error e
    | _, .error e => .error e
  | _ => .error .wrongOperands

/-- .cmd <op4>, <operand64>: op4 is one hex digit (R80, R81). -/
def lineOfCmd : List (List Char) → Except ScriptError ScriptLine
  | [[d], a] =>
    match hexDigitValue d, parseOperand a with
    | some op, .ok x => .ok (.cmd op x)
    | none, _ => .error .malformedOperand
    | _, .error e => .error e
  | [_, _] => .error .malformedOperand
  | _ => .error .wrongOperands

/-- IDLE <n> (R80). The base of n, which R80 does not give, is that of `numeralValue`: DESIGN CHOICE, safe (log entry
10). -/
def lineOfIdle : List (List Char) → Except ScriptError ScriptLine
  | [a] =>
    match numeralValue a with
    | some n => .ok (.idle n)
    | none => .error .malformedOperand
  | _ => .error .wrongOperands

/-- EXPECT <observable> = <value> (R80, R82). -/
def lineOfExpect (rest : List Char) : Except ScriptError ScriptLine :=
  match splitOutsideQuotes '=' false rest with
  | [name, value] =>
    match parseObservable (trimBlanks name), numeralValue (trimBlanks value) with
    | some o, some v => .ok (.expect o v)
    | _, _ => .error .malformedOperand
  | _ => .error .wrongOperands

/-- The operands of a line: the pieces between commas (R80). -/
def operandTexts (rest : List Char) : List (List Char) :=
  let t := trimBlanks rest
  if t.isEmpty then [] else (splitOutsideQuotes ',' false t).map trimBlanks

/-- The line that a first word and the text after it stand for (R80). -/
def parseWords (word rest : List Char) : Except ScriptError ScriptLine :=
  let ops := operandTexts rest
  if word == ['N', 'O', 'P'] then lineOf0 .nop ops
  else if word == ['L', 'D', 'K', 'E', 'Y'] then lineOf1 .ldkey ops
  else if word == ['L', 'D', 'B', 'L', 'K'] then lineOf1 .ldblk ops
  else if word == ['C', 'L', 'R', 'E', 'R', 'R'] then lineOf0 .clrerr ops
  else if word == ['E', 'N', 'C'] then lineOf0 .enc ops
  else if word == ['D', 'E', 'C'] then lineOf0 .dec ops
  else if word == ['.', 'c', 'm', 'd'] then lineOfCmd ops
  else if word == ['I', 'D', 'L', 'E'] then lineOfIdle ops
  else if word == ['W', 'A', 'I', 'T', 'D', 'O', 'N', 'E'] then lineOf0 .waitdone ops
  else if word == ['E', 'N', 'C', 'R', 'Y', 'P', 'T'] then lineOf2 .encrypt ops
  else if word == ['D', 'E', 'C', 'R', 'Y', 'P', 'T'] then lineOf2 .decrypt ops
  else if word == ['E', 'X', 'P', 'E', 'C', 'T'] then lineOfExpect rest
  else if word == ['R', 'S', 'T'] then lineOf0 .rst ops
  else .error .unknownLine

/-- One line of text: nothing for a blank line or a comment (R80). -/
def parseLine (text : List Char) : Except ScriptError (Option ScriptLine) :=
  let t := trimBlanks (dropComment false text)
  if t.isEmpty then .ok none
  else
    match parseWords (t.takeWhile (!isBlank ·)) (t.dropWhile (!isBlank ·)) with
    | .ok line => .ok (some line)
    | .error e => .error e

/-- The lines of a script's text, given line by line (R80). -/
def parseLines : List (List Char) → Except ScriptError (List ScriptLine)
  | [] => .ok []
  | text :: rest =>
    match parseLine text, parseLines rest with
    | .ok (some line), .ok lines => .ok (line :: lines)
    | .ok none, .ok lines => .ok lines
    | .error e, _ => .error e
    | _, .error e => .error e

/-- The lines of a text. -/
def splitLines : List Char → List (List Char)
  | [] => [[]]
  | c :: cs =>
    if c == Char.ofNat 10 then [] :: splitLines cs
    else
      match splitLines cs with
      | line :: lines => (c :: line) :: lines
      | [] => [[c]]

/-- The host's actions for the text of a script (R80 to R82; log entry 10). -/
def assemble (text : List Char) : Except ScriptError (List HostAction) :=
  match parseLines (splitLines text) with
  | .ok lines => scriptActions lines
  | .error e => .error e

end Sys2Proof.Machine
end

