-- ==== Sys2Proof/Machine/Cipher.lean ====
section
/-! DEFINITION. RUN, the run as a pure function (43_cipher_engine.md R160 to R164): the meaning of one cipher
invocation, which the stages compute (R168). -/

namespace Sys2Proof.Machine

/-- (L_n, R_n) of the run, n = 0..16 (R160 to R162). -/
def runPair (blk key : Block) (d : Dir) : (n : Nat) → n ≤ 16 → Half × Half
  | 0, _ => (leftHalf (permute ipTable blk), rightHalf (permute ipTable blk))
  | n + 1, h =>
    let p := runPair blk key d n (Nat.le_of_succ_le h)
    (p.2, xorBits p.1 (f p.2 (roundKey d (KS key) ⟨n, h⟩)))

/-- out: FP of R_16 ++ L_16, the right half first (R163). -/
def runOut (blk key : Block) (d : Dir) : Block :=
  let p := runPair blk key d 16 (Nat.le_refl 16)
  permute fpTable (p.2 ++ p.1)

/-- trace[n] for round n = i + 1 (R160, R164). -/
def runRoundEntry (blk key : Block) (d : Dir) (i : Fin 16) : TraceEntry :=
  let before := runPair blk key d i.val (Nat.le_of_lt i.isLt)
  let after := runPair blk key d (i.val + 1) i.isLt
  let k := roundKey d (KS key) i
  .ofRound (BitVec.ofNat 5 (i.val + 1)) after.1 after.2 k (f before.2 k)

/-- trace[j]: INIT, then ROUND 1 to 16, then FINAL (R164). -/
def runEntry (blk key : Block) (d : Dir) (j : Fin 18) : TraceEntry :=
  if j.val = 0 then
    .ofInit (runPair blk key d 0 (Nat.zero_le 16)).1 (runPair blk key d 0 (Nat.zero_le 16)).2
  else if h : j.val ≤ 16 then runRoundEntry blk key d ⟨j.val - 1, by omega⟩
  else .ofFinal (runOut blk key d)

/-- The trace of a run (R164). -/
def runTrace (blk key : Block) (d : Dir) : Vector TraceEntry 18 := Vector.ofFn (runEntry blk key d)

/-- RUN(blk, key, dir) -> (out, trace) (R160). -/
def RUN (blk key : Block) (d : Dir) : Block × Vector TraceEntry 18 :=
  (runOut blk key d, runTrace blk key d)

end Sys2Proof.Machine
end

