-- ==== Sys2Proof/Safety.lean ====
section
/-! DEFINITION. What a good state is, in the terms the statements use. -/

namespace Sys2Proof.Machine

/-- The kind an entry may hold beside NONE: INIT at 0, ROUND at 1..16, FINAL at 17 (10_state.md R33). -/
def stageKind (j : Fin 18) : TraceKind :=
  if j.val = 0 then .init else if j.val ≤ 16 then .round else .final

/-- Entry j holds NONE or its own kind, with its own index, and 0 in every field that is absent for its kind
(10_state.md R33, R34). -/
def entryOk (j : Fin 18) (e : TraceEntry) : Prop :=
  e = .empty ∨
  (e.kind = stageKind j ∧ e.idx = BitVec.ofNat 5 j.val ∧
    (e.kind = .init → e.k = 0 ∧ e.f = 0 ∧ e.out = 0) ∧
    (e.kind = .round → e.out = 0) ∧
    (e.kind = .final → e.l = 0 ∧ e.r = 0 ∧ e.k = 0 ∧ e.f = 0))

/-- The legal states: what every run from reset keeps. -/
structure State.Inv (s : State) : Prop where
  /-- STAGE = 0 exactly when no run is in progress (10_state.md R27) -/
  stage_zero : s.stage = 0 ↔ s.busy = false
  /-- BUSY = 1 and DONE = 1 never hold together (R32) -/
  not_busy_done : ¬ (s.busy = true ∧ s.done = true)
  /-- ERRCODE = 0 exactly when ERR = 0 (R31) -/
  err_code : s.errCode = .none ↔ s.err = false
  /-- whenever KEYV = 1, SK = KS(KEY) (R29) -/
  subkeys : s.keyv = true → s.sk = KS s.key
  /-- a run is in progress only on a loaded key and block (44_commands.md R199) -/
  loaded : s.busy = true → s.keyv = true ∧ s.blkv = true
  /-- every trace entry has the form of its stage (R33, R34) -/
  entries : ∀ j : Fin 18, entryOk j s.trace[j]
  /-- during a run exactly the entries of the performed stages are written (70_reset_and_hazards.md R260) -/
  progress : s.busy = true → ∀ j : Fin 18, s.trace[j] = .empty ↔ s.stage.val ≤ j.val
  /-- DONE = 1: the trace is complete and its last entry shows DOUT (R31, R32) -/
  complete : s.done = true → (∀ j : Fin 18, s.trace[j] ≠ .empty) ∧ s.trace[17] = .ofFinal s.dout
  /-- with no run in progress and none completed since the last reset, the trace is empty and DOUT is 0
  (R38, 70_reset_and_hazards.md R251) -/
  fresh : s.busy = false → s.done = false → (∀ j : Fin 18, s.trace[j] = .empty) ∧ s.dout = 0

/-- What L, R, DOUT and TRACE hold, in terms of RUN. During a run on the loaded block and key, L and R are the pair
after the performed rounds, and the trace is RUN's up to them (43_cipher_engine.md R168). With DONE = 1, DOUT and TRACE
are RUN's, for the block and the key of the last run started and DIR (10_state.md R31, R32). -/
structure State.HoldsRun (s : State) : Prop where
  pair : s.busy = true → ∀ h : s.stage.val - 1 ≤ 16,
    (s.l, s.r) = runPair s.blk s.key s.dir (s.stage.val - 1) h
  written : s.busy = true → ∀ j : Fin 18,
    (j.val < s.stage.val → s.trace[j] = runEntry s.blk s.key s.dir j) ∧
    (s.stage.val ≤ j.val → s.trace[j] = .empty)
  result : s.done = true → ∃ blk key : Block, (s.dout, s.trace) = RUN blk key s.dir

/-- Two states that differ at most where the spec gives an element no value: KEY and SK while KEYV = 0, BLK while
BLKV = 0, L and R while no run is in progress (10_state.md R24, R25, R26, R38). SK, L and R must agree while a run
reads them. -/
structure SameButUnloaded (s t : State) : Prop where
  key : s.keyv = true → s.key = t.key
  sk : s.keyv = true ∨ s.busy = true → s.sk = t.sk
  blk : s.blkv = true → s.blk = t.blk
  l : s.busy = true → s.l = t.l
  r : s.busy = true → s.r = t.r
  rest : { s with key := t.key, sk := t.sk, blk := t.blk, l := t.l, r := t.r } = t

end Sys2Proof.Machine
end

