-- ==== Sys2Proof/Certificates/Slice0/Obligations.lean ====
section
/-! DEFINITION. The statements for the provers. Each says which rule of spec/ it formalises. -/

open Sys2Proof Sys2Proof.Machine

/-! ### Encoding -/

/-- R73, R76, R77: the canonical word of every well-formed command decodes to that command, with its whole operand. -/
def Obligations.EncodeThenDecodeReturnsCommand : Prop :=
  ∀ i : Instr, i.wf = true → decode (encode i) = i

/-- R77: every command word is an op and a data field, decodes by op alone to the command of its row, and is accepted
by the handshake and reset, not by the decode. -/
def Obligations.EveryCommandWordDecodesByOpAlone : Prop :=
  (∀ cw : CommandWord, ∃ op data, cw = commandWord op data) ∧
  (∀ data : Block,
    decode (commandWord 0x0#4 data) = .nop ∧
    decode (commandWord 0x1#4 data) = .ldkey data ∧
    decode (commandWord 0x2#4 data) = .ldblk data ∧
    decode (commandWord 0x3#4 data) = .clrerr ∧
    decode (commandWord 0x4#4 data) = .enc ∧
    decode (commandWord 0x5#4 data) = .dec ∧
    decode (commandWord 0x6#4 data) = .reserved6 ∧
    decode (commandWord 0x7#4 data) = .reserved7 ∧
    decode (commandWord 0x8#4 data) = .reserved8 ∧
    decode (commandWord 0x9#4 data) = .reserved9 ∧
    decode (commandWord 0xA#4 data) = .reservedA ∧
    decode (commandWord 0xB#4 data) = .reservedB ∧
    decode (commandWord 0xC#4 data) = .reservedC ∧
    decode (commandWord 0xD#4 data) = .reservedD ∧
    decode (commandWord 0xE#4 data) = .reservedE ∧
    decode (commandWord 0xF#4 data) = .reservedF) ∧
  (∀ (p : PortIn) (busy : Bool),
    (∃ i, arbitrate p busy = .accept i) ↔ p.rst = false ∧ busy = false ∧ p.cmdValid = true)

/-- R76: the data field of every op but LDKEY's and LDBLK's has no effect on the decode or on the step, and the
canonical encoding of those commands, which the assembler offers, has data 0. -/
def Obligations.IgnoredDataHasNoEffect : Prop :=
  (∀ (op : Opcode) (data data' : Block), op ≠ 0x1#4 → op ≠ 0x2#4 →
    decode (commandWord op data) = decode (commandWord op data') ∧
    ∀ (p : PortIn) (s : State),
      edge { p with cmdOp := op, cmdData := data } s = edge { p with cmdOp := op, cmdData := data' } s) ∧
  (∀ i : Instr, opcode i ≠ 0x1#4 → opcode i ≠ 0x2#4 → dataField (encode i) = 0) ∧
  scriptActions [.nop, .clrerr, .enc, .dec] =
    .ok [.offer 0x0 0, .offer 0x3 0, .offer 0x4 0, .offer 0x5 0]

/-- R74: ENC and DEC share op[3:1] = 0b010, op[0] is the direction, and it is the value a start writes to DIR. -/
def Obligations.StartOpcodesCarryTheDirection : Prop :=
  (opField (encode .enc) = 0b0100#4 ∧ opField (encode .dec) = 0b0101#4) ∧
  ∀ (op : Opcode) (data : Block), op.extractLsb' 1 3 = 0b010#3 →
    decode (commandWord op data) = (if op[0] then .dec else .enc) ∧
    ∀ s : State, s.keyv = true → s.blkv = true →
      ∃ t, exec (decode (commandWord op data)) s = .next t ∧ t.dir.bit = op[0]

/-- Sanity: words written out from the opcode table decode to the commands they stand for (R73, R83). -/
def Obligations.SampleCommandWordsDecode : Prop :=
  decode 0x00000000000000000#68 = .nop ∧
  decode 0x1133457799BBCDFF1#68 = .ldkey 0x133457799BBCDFF1 ∧
  decode 0x24142434445464748#68 = .ldblk 0x4142434445464748 ∧
  decode 0x3FFFFFFFFFFFFFFFF#68 = .clrerr ∧
  decode 0x40123456789ABCDEF#68 = .enc ∧
  decode 0x50000000000000000#68 = .dec ∧
  decode 0x9FFFFFFFFFFFFFFFF#68 = .reserved9

/-- The model's numbering of command words (log entry 4): where the decoder reads a command from a numbered word, the
step after `withFetchWord` runs exactly that command, on the machine with no run in progress. -/
def Obligations.PlacedWordRunsAtTheNextStep : Prop :=
  ∀ (nbits w : Nat) (i : Instr) (s : State), decodeTableWord nbits w = some i →
    step (s.withFetchWord nbits w) = exec i { s with busy := false, stage := 0 }

/-! ### The step -/

/-- A step runs the decoded command: with no run in progress, the command the host offers at the head of its script
is accepted, executed as decoded, and taken from the script (R190, R80). -/
def Obligations.StepRunsDecodedInstruction : Prop :=
  (∀ (s : State) (op : Opcode) (data : Block) (rest : List HostAction) (i : Instr),
    s.busy = false → s.host = .offer op data :: rest → decode (commandWord op data) = i →
    step s = exec i { s with host := rest }) ∧
  (∀ (s : State) (p : PortIn) (rest : List HostAction), s.host = .drive p :: rest →
    step s = edge p { s with host := rest })

/-- R190: exactly one case applies at an edge, tested in this order: reset, the stage of a run, an accepted command,
no change. A command is accepted exactly when cmd_valid = 1 and cmd_ready = 1. -/
def Obligations.EdgeCasesInOrder : Prop :=
  ∀ (p : PortIn) (s : State),
    (p.rst = true → edge p s = .next (resetEdge s)) ∧
    (∀ i : Fin 16, p.rst = false → s.busy = true → s.stage.val = i.val + 1 →
      edge p s = .next (roundStage i s)) ∧
    (p.rst = false → s.busy = true → s.stage.val = 17 → edge p s = .next (fpStage s)) ∧
    (p.rst = false → s.busy = false → p.cmdValid = true →
      edge p s = exec (decode (commandWord p.cmdOp p.cmdData)) s) ∧
    (p.rst = false → s.busy = false → p.cmdValid = false → edge p s = .next s) ∧
    ((∃ i, arbitrate p s.busy = .accept i) ↔ p.cmdValid = true ∧ cmdReady p s = true)

/-- The model's choice (log entry 5): where R190 gives a busy step no stage (STAGE = 0), the machine stops by name. -/
def Obligations.BusyWithoutStageStops : Prop :=
  ∀ (p : PortIn) (s : State), p.rst = false → s.busy = true → s.stage = 0 →
    edge p s = .fault .busyWithoutStage

/-- R201: an edge with no reset, no run and no command changes no element, and the outputs stay as they were. -/
def Obligations.IdleEdgeChangesNothing : Prop :=
  ∀ (p : PortIn) (s : State), p.rst = false → s.busy = false → p.cmdValid = false →
    ∃ t, edge p s = .next t ∧ t = s ∧ ∀ q : PortIn, outputs q t = outputs q s

/-- While BUSY = 1 the command inputs have no effect, no command is accepted, and an offered command stays with the
host (R190, R257, R258). -/
def Obligations.CommandsAreNotTakenWhileBusy : Prop :=
  (∀ (p q : PortIn) (s : State), s.busy = true → p.rst = false → q.rst = false →
    cmdReady p s = false ∧ edge p s = edge q s) ∧
  (∀ (s : State) (op : Opcode) (data : Block) (rest : List HostAction),
    s.busy = true → s.host = .offer op data :: rest → step s = performStage s)

/-! ### Reset -/

/-- R250, R251: at an edge with rst = 1, whatever the machine is doing, every element with a reset value takes it, a
run is abandoned with no partial result visible, no command is accepted and no error is raised. -/
def Obligations.ResetTakesEveryElementToItsResetValue : Prop :=
  ∀ (p : PortIn) (s : State), p.rst = true →
    cmdReady p s = false ∧ (∀ i, arbitrate p s.busy ≠ .accept i) ∧
    ∃ t, edge p s = .next t ∧
      t.keyv = false ∧ t.blkv = false ∧ t.dir = .encrypt ∧ t.stage = 0 ∧ t.busy = false ∧
      t.done = false ∧ t.err = false ∧ t.errCode = .none ∧ t.dout = 0 ∧
      (∀ j : Fin 18, t.trace[j] = .empty) ∧ t.host = s.host

/-- The model's choice (log entry 1): the elements the spec gives no reset value are 0 after an edge with rst = 1, and
the state then is State.reset with the host's script kept. -/
def Obligations.ResetLeavesChosenZeros : Prop :=
  ∀ (p : PortIn) (s : State), p.rst = true →
    ∃ t, edge p s = .next t ∧ t = { State.reset with host := s.host } ∧
      t.key = 0 ∧ (∀ i : Fin 16, t.sk[i] = 0) ∧ t.blk = 0 ∧ t.l = 0 ∧ t.r = 0

/-- R253: holding rst = 1 for several edges gives the result of one reset step. -/
def Obligations.HeldResetIsOneReset : Prop :=
  ∀ (p : PortIn) (ps : List PortIn) (s : State), p.rst = true → (∀ q ∈ ps, q.rst = true) →
    ∃ t, edge p s = .next t ∧ edges (p :: ps) s = .next t

/-- R252: after a reset step, with rst = 0, the machine is idle: it is ready, STATUS and dout are 0, every trace index
reads NONE, and without a command it stays so. -/
def Obligations.MachineIsIdleAfterReset : Prop :=
  ∀ (p q : PortIn) (s : State), p.rst = true → q.rst = false →
    ∃ t, edge p s = .next t ∧
      outputs q t =
        { cmdReady := true, status := 0, dout := 0, trKind := 0, trIdxO := 0, trL := 0, trR := 0,
          trK := 0, trF := 0, trOut := 0 } ∧
      (q.cmdValid = false → edge q t = .next t)

/-! ### Commands -/

/-- R193: NOP, whatever its data, changes no element, an earlier error among them; it is accepted only when BUSY = 0;
from the reset state it leaves STATUS 0. -/
def Obligations.NopChangesNothing : Prop :=
  (∀ data : Block, decode (commandWord 0x0#4 data) = .nop) ∧
  (∀ s : State, exec .nop s = .next s) ∧
  (∀ p : PortIn, arbitrate p true ≠ .accept .nop) ∧
  encode .nop = 0#68 ∧ statusWord State.reset = 0

/-- R194: LDKEY writes KEY, all of SK and KEYV, and nothing else; loading the loaded key again changes nothing; the
example's subkeys and STATUS bit. -/
def Obligations.LdkeyLoadsKeyAndSubkeys : Prop :=
  (∀ key : Block, decode (commandWord 0x1#4 key) = .ldkey key) ∧
  (∀ (key : Block) (s : State),
    exec (.ldkey key) s = .next { s with key := key, sk := KS key, keyv := true }) ∧
  (∀ s : State, s.Inv → s.keyv = true → exec (.ldkey s.key) s = .next s) ∧
  (∀ (key : Block) (s : State), ∃ t, exec (.ldkey key) s = .next t ∧ (statusWord t)[8] = true ∧
    ∀ (d : Dir) (i : Fin 16), roundKey d t.sk i = roundKey d (KS key) i) ∧
  (KS 0x133457799BBCDFF1)[0] = 0x1B02EFFC7072 ∧ (KS 0x133457799BBCDFF1)[15] = 0xCB3D8B0E17F5

/-- R195: LDBLK writes BLK and BLKV and nothing else: not DOUT, not the trace, not DONE; the listing of the example. -/
def Obligations.LdblkLoadsBlock : Prop :=
  (∀ blk : Block, decode (commandWord 0x2#4 blk) = .ldblk blk) ∧
  (∀ (blk : Block) (s : State), exec (.ldblk blk) s = .next { s with blk := blk, blkv := true }) ∧
  encode (.ldblk (textToBits [65, 66, 67, 68, 69, 70, 71, 72])) = 0x24142434445464748#68

/-- R196: CLRERR clears ERR and ERRCODE and nothing else; with ERR = 0 it changes nothing; it is the only command that
clears ERR; the example's STATUS values. -/
def Obligations.ClrerrClearsTheError : Prop :=
  (∀ data : Block, decode (commandWord 0x3#4 data) = .clrerr) ∧
  (∀ s : State, exec .clrerr s = .next { s with err := false, errCode := .none }) ∧
  (∀ s : State, s.Inv → s.err = false → exec .clrerr s = .next s) ∧
  (∀ (i : Instr) (s t : State), exec i s = .next t → s.err = true → t.err = false → i = .clrerr) ∧
  ∃ t u, exec .reserved7 State.reset = .next t ∧ statusWord t = 0x0014 ∧
    exec .clrerr t = .next u ∧ statusWord u = 0x0000

/-- R197, R165: ENC, whatever its data, checks the key and then the block; a failed check has the error effect alone; a
start begins an encrypt run with the IP stage in the same step, and writes nothing else: KEY, SK, BLK, DOUT, an earlier
error and the rest keep their values. The example: the standard vector, from any idle state without an error. -/
def Obligations.EncStartsAnEncryptRun : Prop :=
  (∀ data : Block, decode (commandWord 0x4#4 data) = .enc) ∧
  encode .enc = 0x40000000000000000#68 ∧
  (∀ s : State, s.keyv = false → exec .enc s = .next (raiseError .noKey s)) ∧
  (∀ s : State, s.keyv = true → s.blkv = false → exec .enc s = .next (raiseError .noBlock s)) ∧
  (∀ s : State, s.keyv = true → s.blkv = true →
    exec .enc s = .next { s with
      dir := .encrypt
      done := false
      busy := true
      stage := 1
      l := (permute ipTable s.blk).extractLsb' 32 32
      r := (permute ipTable s.blk).extractLsb' 0 32
      trace := (Vector.replicate 18 TraceEntry.empty).set 0
        { kind := .init, idx := 0, l := (permute ipTable s.blk).extractLsb' 32 32,
          r := (permute ipTable s.blk).extractLsb' 0 32, k := 0, f := 0, out := 0 } }) ∧
  (∀ s : State, s.busy = false → s.err = false → s.errCode = .none →
    ∃ a b c, exec (.ldkey 0x133457799BBCDFF1) s = .next a ∧
      exec (.ldblk 0x0123456789ABCDEF) a = .next b ∧ exec .enc b = .next c ∧
      statusWord c = 0x0701 ∧ c.trace[0] = .ofInit 0xCC00CCFF 0xF0AAF0AA ∧
      ∀ ps : List PortIn, (∀ p ∈ ps, p.rst = false) → ps.length = 17 →
        ∃ t, edges ps c = .next t ∧ t.dout = 0x85E813540F0AB405 ∧ statusWord t = 0x0302)

/-- R198, R165: DEC does exactly as ENC, except that DIR becomes 1. The example: the standard vector's way back. -/
def Obligations.DecStartsADecryptRun : Prop :=
  (∀ data : Block, decode (commandWord 0x5#4 data) = .dec) ∧
  encode .dec = 0x50000000000000000#68 ∧
  (∀ s : State, s.keyv = false → exec .dec s = .next (raiseError .noKey s)) ∧
  (∀ s : State, s.keyv = true → s.blkv = false → exec .dec s = .next (raiseError .noBlock s)) ∧
  (∀ s : State, s.keyv = true → s.blkv = true →
    exec .dec s = .next { s with
      dir := .decrypt
      done := false
      busy := true
      stage := 1
      l := (permute ipTable s.blk).extractLsb' 32 32
      r := (permute ipTable s.blk).extractLsb' 0 32
      trace := (Vector.replicate 18 TraceEntry.empty).set 0
        { kind := .init, idx := 0, l := (permute ipTable s.blk).extractLsb' 32 32,
          r := (permute ipTable s.blk).extractLsb' 0 32, k := 0, f := 0, out := 0 } }) ∧
  (∀ s : State, s.busy = false → s.err = false → s.errCode = .none →
    ∃ a b c, exec (.ldkey 0x133457799BBCDFF1) s = .next a ∧
      exec (.ldblk 0x85E813540F0AB405) a = .next b ∧ exec .dec b = .next c ∧
      ∀ ps : List PortIn, (∀ p ∈ ps, p.rst = false) → ps.length = 17 →
        ∃ t, edges ps c = .next t ∧ t.dout = 0x0123456789ABCDEF ∧ statusWord t = 0x030A)

/-- R199: ENC and DEC require a loaded key and block; KEYV is checked before BLKV; a failed check has the error effect
alone. -/
def Obligations.StartIsCheckedKeyFirst : Prop :=
  ∀ i ∈ [Instr.enc, Instr.dec], ∀ s : State,
    (s.keyv = false →
      exec i s = .next (if s.err = true then s else { s with err := true, errCode := .noKey })) ∧
    (s.keyv = true → s.blkv = false →
      exec i s = .next (if s.err = true then s else { s with err := true, errCode := .noBlock })) ∧
    (s.keyv = true → s.blkv = true → ∃ t, exec i s = .next t ∧ t.busy = true)

/-- R200: every reserved op raises ILLEGAL_CMD, whatever its data, and has no other effect; the example's STATUS. -/
def Obligations.ReservedOpsRaiseIllegalCmd : Prop :=
  (∀ i ∈ [Instr.reserved6, .reserved7, .reserved8, .reserved9, .reservedA, .reservedB, .reservedC,
      .reservedD, .reservedE, .reservedF], ∀ s : State,
    exec i s = .next (if s.err = true then s else { s with err := true, errCode := .illegalCmd })) ∧
  (∀ (op : Opcode) (data : Block), 6 ≤ op.toNat →
    decode (commandWord op data) ∈ [Instr.reserved6, .reserved7, .reserved8, .reserved9, .reservedA,
      .reservedB, .reservedC, .reservedD, .reservedE, .reservedF]) ∧
  (∃ t, exec (decode (commandWord 7 0)) State.reset = .next t ∧ statusWord t = 0x0014)

/-! ### Errors -/

/-- R226: the error effect: the first error is kept, and nothing else changes. -/
def Obligations.ErrorEffectKeepsTheFirstError : Prop :=
  ∀ (code : ErrCode) (s : State),
    (s.err = false → raiseError code s = { s with err := true, errCode := code }) ∧
    (s.err = true → raiseError code s = s)

/-- R220, R222, with the causes of R221: NOP, LDKEY, LDBLK and CLRERR never raise; ENC and DEC raise NO_KEY or
NO_BLOCK for their causes alone; a reserved op always raises ILLEGAL_CMD; a raising command changes nothing but ERR and
ERRCODE; and an edge that accepts no command, a stage, an idle edge or a reset, raises none. -/
def Obligations.OnlyStartsAndReservedOpsRaise : Prop :=
  (∀ (i : Instr) (s t : State), exec i s = .next t → s.err = false → t.err = true →
    t = { s with err := true, errCode := t.errCode } ∧
    ((i ∈ [Instr.enc, Instr.dec] ∧
        (t.errCode = .noKey ∧ s.keyv = false ∨
         t.errCode = .noBlock ∧ s.keyv = true ∧ s.blkv = false)) ∨
     (6 ≤ (opcode i).toNat ∧ t.errCode = .illegalCmd))) ∧
  (∀ (i : Instr) (s : State), 6 ≤ (opcode i).toNat → ∃ t, exec i s = .next t ∧ t.err = true) ∧
  (∀ i ∈ [Instr.enc, Instr.dec], ∀ s : State, s.keyv = false ∨ s.blkv = false →
    ∃ t, exec i s = .next t ∧ t.err = true) ∧
  (∀ (p : PortIn) (s t : State), edge p s = .next t → (∀ i, arbitrate p s.busy ≠ .accept i) →
    (p.rst = false ∧ t.err = s.err ∧ t.errCode = s.errCode) ∨
    (p.rst = true ∧ t.err = false ∧ t.errCode = .none))

/-- R227: once set, ERR and ERRCODE stay until an accepted CLRERR or a reset; and an error blocks nothing: with any
other ERR and ERRCODE every command has the same effect on every other element. -/
def Obligations.ErrorStaysUntilClearedAndBlocksNothing : Prop :=
  (∀ (p : PortIn) (s t : State), edge p s = .next t → s.err = true →
    (t.err = true ∧ t.errCode = s.errCode) ∨ p.rst = true ∨ arbitrate p s.busy = .accept .clrerr) ∧
  (∀ (i : Instr) (s t : State) (e : Bool) (c : ErrCode), exec i s = .next t →
    ∃ u, exec i { s with err := e, errCode := c } = .next u ∧
      { u with err := t.err, errCode := t.errCode } = t)

/-! ### What each step may change -/

/-- R191: every element a command's rule does not name keeps its value: DOUT under every command; STAGE, BUSY, DONE,
DIR, L, R and TRACE but for ENC and DEC that start a run; KEY, SK and KEYV but for LDKEY; BLK and BLKV but for LDBLK;
ERR and ERRCODE under NOP, LDKEY, LDBLK and a start that runs. -/
def Obligations.CommandsWriteOnlyTheirElements : Prop :=
  ∀ (i : Instr) (s t : State), exec i s = .next t →
    t.dout = s.dout ∧ t.host = s.host ∧
    (i ∉ [Instr.enc, Instr.dec] ∨ s.keyv = false ∨ s.blkv = false →
      t.stage = s.stage ∧ t.busy = s.busy ∧ t.done = s.done ∧ t.dir = s.dir ∧
      t.l = s.l ∧ t.r = s.r ∧ t.trace = s.trace) ∧
    ((∀ key, i ≠ .ldkey key) → t.key = s.key ∧ t.sk = s.sk ∧ t.keyv = s.keyv) ∧
    ((∀ blk, i ≠ .ldblk blk) → t.blk = s.blk ∧ t.blkv = s.blkv) ∧
    ((opcode i).toNat < 3 ∨ (i ∈ [Instr.enc, Instr.dec] ∧ s.keyv = true ∧ s.blkv = true) →
      t.err = s.err ∧ t.errCode = s.errCode)

/-- R32: each flag is set and cleared by the events the rule names, and by no other event of an edge without reset; a
reset clears them all; BUSY = 1 and DONE = 1 never hold together in a legal state. -/
def Obligations.FlagsChangeOnlyByTheirEvents : Prop :=
  (∀ (p : PortIn) (s t : State), edge p s = .next t → p.rst = false →
    (t.busy ≠ s.busy →
      (t.busy = true ∧ t.done = false ∧ s.keyv = true ∧ s.blkv = true ∧
        (arbitrate p s.busy = .accept .enc ∨ arbitrate p s.busy = .accept .dec)) ∨
      (t.busy = false ∧ t.done = true ∧ s.stage.val = 17)) ∧
    (t.done ≠ s.done →
      (t.done = false ∧ t.busy = true ∧
        (arbitrate p s.busy = .accept .enc ∨ arbitrate p s.busy = .accept .dec)) ∨
      (t.done = true ∧ s.busy = true ∧ s.stage.val = 17)) ∧
    (t.err ≠ s.err ∨ t.errCode ≠ s.errCode →
      (t = raiseError t.errCode s ∧ ∃ i, arbitrate p s.busy = .accept i) ∨
      (t.err = false ∧ t.errCode = .none ∧ arbitrate p s.busy = .accept .clrerr)) ∧
    (t.keyv ≠ s.keyv → t.keyv = true ∧ ∃ key, arbitrate p s.busy = .accept (.ldkey key)) ∧
    (t.blkv ≠ s.blkv → t.blkv = true ∧ ∃ blk, arbitrate p s.busy = .accept (.ldblk blk))) ∧
  (∀ (p : PortIn) (s t : State), edge p s = .next t →
    ((arbitrate p s.busy = .accept .enc ∨ arbitrate p s.busy = .accept .dec) → s.keyv = true →
      s.blkv = true → t.busy = true ∧ t.done = false) ∧
    (arbitrate p s.busy = .stage → s.stage.val = 17 → t.busy = false ∧ t.done = true) ∧
    (arbitrate p s.busy = .accept .clrerr → t.err = false ∧ t.errCode = .none) ∧
    (∀ key, arbitrate p s.busy = .accept (.ldkey key) → t.keyv = true) ∧
    (∀ blk, arbitrate p s.busy = .accept (.ldblk blk) → t.blkv = true)) ∧
  (∀ (p : PortIn) (s t : State), edge p s = .next t → p.rst = true →
    t.busy = false ∧ t.done = false ∧ t.err = false ∧ t.errCode = .none ∧
    t.keyv = false ∧ t.blkv = false) ∧
  (∀ s : State, s.Inv → ¬ (s.busy = true ∧ s.done = true))

/-- R27: in a legal state STAGE is 0 exactly when no run is in progress and else 1..17, the number of the next stage
to perform; it moves only 0 to 1 at an accepted start, which performs stage 0, s to s + 1 at a busy step of round s of
1..16, 17 to 0 at the FP stage, and to 0 at reset. -/
def Obligations.StageMovesOnlyInSequence : Prop :=
  ∀ (p : PortIn) (s t : State), s.Inv → edge p s = .next t →
    (s.busy = false → s.stage.val = 0) ∧ (s.busy = true → 1 ≤ s.stage.val ∧ s.stage.val ≤ 17) ∧
    ((p.rst = true ∧ t.stage.val = 0) ∨
     (p.rst = false ∧ s.stage.val = 0 ∧ t.stage.val = 1 ∧
       (arbitrate p s.busy = .accept .enc ∨ arbitrate p s.busy = .accept .dec) ∧
       s.keyv = true ∧ s.blkv = true ∧
       t.l = leftHalf (permute ipTable s.blk) ∧ t.r = rightHalf (permute ipTable s.blk)) ∨
     (p.rst = false ∧ s.busy = true ∧ (∃ i : Fin 16, s.stage.val = i.val + 1 ∧ t = roundStage i s) ∧
       t.stage.val = s.stage.val + 1) ∨
     (p.rst = false ∧ s.busy = true ∧ s.stage.val = 17 ∧ t = fpStage s ∧ t.stage.val = 0) ∨
     (p.rst = false ∧ s.busy = false ∧ s.stage.val = 0 ∧ t.stage.val = 0))

/-- DOUT changes only at the FP stage and at reset, and while DONE stays 1 DOUT and the trace stay as they are
(R30, R61). -/
def Obligations.ResultIsHeldUntilTheNextRunOrReset : Prop :=
  ∀ (p : PortIn) (s t : State), edge p s = .next t → p.rst = false →
    (¬ (s.busy = true ∧ s.stage.val = 17) → t.dout = s.dout) ∧
    (s.Inv → s.done = true →
      t.dout = s.dout ∧
      ((t.done = true ∧ t.trace = s.trace) ∨
       (t.busy = true ∧
         (arbitrate p s.busy = .accept .enc ∨ arbitrate p s.busy = .accept .dec))))

/-! ### The stages of a run -/

/-- R166: the round stage of round r = i + 1, with both halves computed from the old pair (R162), and nothing else
changed. -/
def Obligations.RoundStageComputesOneRound : Prop :=
  ∀ (p : PortIn) (s : State) (i : Fin 16), p.rst = false → s.busy = true → s.stage.val = i.val + 1 →
    edge p s = .next { s with
      l := s.r
      r := s.l ^^^ f s.r (roundKey s.dir s.sk i)
      trace := s.trace.set (i.val + 1)
        { kind := .round, idx := BitVec.ofNat 5 (i.val + 1), l := s.r,
          r := s.l ^^^ f s.r (roundKey s.dir s.sk i), k := roundKey s.dir s.sk i,
          f := f s.r (roundKey s.dir s.sk i), out := 0 }
      stage := ⟨i.val + 2, by omega⟩ }

/-- R167: the FP stage, on R ++ L with the right half first, and nothing else changed. -/
def Obligations.FinalStageWritesTheResult : Prop :=
  ∀ (p : PortIn) (s : State), p.rst = false → s.busy = true → s.stage.val = 17 →
    edge p s = .next { s with
      dout := permute fpTable (s.r ++ s.l)
      trace := s.trace.set 17
        { kind := .final, idx := 17, l := 0, r := 0, k := 0, f := 0,
          out := permute fpTable (s.r ++ s.l) }
      busy := false
      done := true
      stage := 0 }

/-- R168: the stages compute RUN. After an accepted start and n further edges without reset, n of 0..16, the pair is
RUN's, TRACE[0..n] are RUN's and the others NONE; after the 17th, DOUT and all of TRACE are RUN's, and the flags are as
the rule says. The commands offered meanwhile are whatever the host likes. -/
def Obligations.StagesComputeRun : Prop :=
  ∀ (i : Instr) (d : Dir) (s s1 : State), (i, d) ∈ [(Instr.enc, Dir.encrypt), (Instr.dec, Dir.decrypt)] →
    s.keyv = true → s.blkv = true → s.sk = KS s.key → exec i s = .next s1 →
    (∀ ps : List PortIn, (∀ p ∈ ps, p.rst = false) → ∀ h : ps.length ≤ 16,
      ∃ t, edges ps s1 = .next t ∧ t.busy = true ∧ t.done = false ∧ t.dir = d ∧
        t.stage.val = ps.length + 1 ∧ t.blk = s.blk ∧ t.key = s.key ∧ t.sk = s.sk ∧
        t.dout = s.dout ∧ (t.l, t.r) = runPair s.blk s.key d ps.length h ∧
        ∀ j : Fin 18,
          (j.val ≤ ps.length → t.trace[j] = runEntry s.blk s.key d j) ∧
          (ps.length < j.val → t.trace[j] = .empty)) ∧
    (∀ ps : List PortIn, (∀ p ∈ ps, p.rst = false) → ps.length = 17 →
      ∃ t, edges ps s1 = .next t ∧ t.busy = false ∧ t.done = true ∧ t.stage = 0 ∧ t.dir = d ∧
        (t.dout, t.trace) = RUN s.blk s.key d ∧
        (t.l, t.r) = runPair s.blk s.key d 16 (Nat.le_refl 16))

/-- R262: a command that starts no run takes one step; after an accepted start cmd_ready = 0 for the 17 steps that
follow without reset, and a command can be accepted at the 18th edge after the accepting one. -/
def Obligations.RunTakesEighteenSteps : Prop :=
  (∀ (i : Instr) (s t : State), exec i s = .next t → s.busy = false →
    (t.busy = true ↔ i ∈ [Instr.enc, Instr.dec] ∧ s.keyv = true ∧ s.blkv = true)) ∧
  (∀ (s s1 : State), ∀ i ∈ [Instr.enc, Instr.dec], s.keyv = true → s.blkv = true →
    exec i s = .next s1 →
    ∀ (ps : List PortIn) (q : PortIn), (∀ p ∈ ps, p.rst = false) → q.rst = false → ps.length ≤ 17 →
      ∃ t, edges ps s1 = .next t ∧ (cmdReady q t = true ↔ ps.length = 17) ∧
        (ps.length = 17 → q.cmdValid = true →
          edge q t = exec (decode (commandWord q.cmdOp q.cmdData)) t))

/-- The whole system: a host that waits with WAITDONE during a run of any legal state reaches, after the stages that
are left, a sample with BUSY = 0 and DONE = 1 (R82, R225). -/
def Obligations.WaitdoneReachesDone : Prop :=
  ∀ (s : State) (rest : List HostAction), s.Inv → s.busy = true → s.host = .waitDone :: rest →
    ∃ t, Host.Core.run core (18 - s.stage.val) s = .next t ∧ t.busy = false ∧ t.done = true ∧
      t.host = s.host

/-! ### The cipher -/

/-- R100: DES bit i of permute T v is DES bit T[i] of v, whatever the widths; the example. -/
def Obligations.PermuteMovesDesBits : Prop :=
  (∀ (n m : Nat) (T : PermTable n m) (v : BitVec n) (i : Nat), 1 ≤ i → i ≤ m →
    desBit (permute T v) i = desBit v (T.entries.getD (i - 1) 0) ∧
    1 ≤ T.entries.getD (i - 1) 0 ∧ T.entries.getD (i - 1) 0 ≤ n) ∧
  permute eTable 0x80000000#32 = 0x400000000001#48

/-- R101: DES bit i of rotateLeft v k is DES bit ((i - 1 + k) mod 28) + 1 of v, for k of 0..28; k = 0 and k = 28 give
v; the example. -/
def Obligations.RotateLeftMovesDesBits : Prop :=
  (∀ (v : KeyHalf) (k i : Nat), k ≤ 28 → 1 ≤ i → i ≤ 28 →
    desBit (rotateLeft v k) i = desBit v ((i - 1 + k) % 28 + 1)) ∧
  (∀ v : KeyHalf, rotateLeft v 0 = v ∧ rotateLeft v 28 = v) ∧
  rotateLeft 0xF0CCAAF#28 1 = 0xE19955F#28

/-- FP is the inverse of IP, both ways (R105). -/
def Obligations.FinalPermutationInvertsInitial : Prop :=
  ∀ v : Block, permute fpTable (permute ipTable v) = v ∧ permute ipTable (permute fpTable v) = v

/-- The tables' properties that the rules derive: the rotation counts are 1 exactly at rounds 1, 2, 9 and 16 and sum to
28 (R110), PC-1 selects no bit at a multiple of 8 (R108), every row of every S-box is a permutation of 0..15 (R141). -/
def Obligations.ConstantTablesHaveTheirProperties : Prop :=
  shiftsWf shiftTable.toList = true ∧
  (∀ i : Fin 16, shiftCount i = 1 ↔ i.val + 1 ∈ [1, 2, 9, 16]) ∧ shiftTable.toList.sum = 28 ∧
  (∀ t ∈ pc1Table.entries, t % 8 ≠ 0) ∧
  (∀ (b : Fin 8) (row : Fin 4) (v : BitVec 4), ∃ col : Fin 16, sboxes[b][row][col] = v)

/-- R142: the first and last bits of a group form the row and bits 2..5 the column, the first bit of each the most
significant; the corner cases of box 1. -/
def Obligations.SboxRowAndColumn : Prop :=
  (∀ (b : Fin 8) (g : BitVec 6) (row : Fin 4) (col : Fin 16),
    row.val = 2 * (desBit g 1).toNat + (desBit g 6).toNat →
    col.val = 8 * (desBit g 2).toNat + 4 * (desBit g 3).toNat + 2 * (desBit g 4).toNat + (desBit g 5).toNat →
    sboxLookup b g = sboxes[b][row][col]) ∧
  sboxLookup 0 0b000000 = 14 ∧ sboxLookup 0 0b111111 = 13 ∧ sboxLookup 0 0b100001 = 15 ∧
  sboxLookup 0 0b011110 = 7 ∧ sboxLookup 0 0b100000 = 4 ∧ sboxLookup 0 0b000001 = 0

/-- R143, R144: f is P of the eight S-box outputs, output b in bits [35-4b : 32-4b] from group b in bits
[53-6b : 48-6b] of E(R) XOR K, for b of 1..8; so f depends on R and K through E(R) XOR K alone; R144's values. -/
def Obligations.RoundFunctionIsSboxesThenP : Prop :=
  (∀ (r : Half) (k : Subkey), ∃ s : Half,
    f r k = permute pTable s ∧
    ∀ b : Fin 8,
      s.extractLsb' (32 - 4 * (b.val + 1)) 4 =
        sboxLookup b ((permute eTable r ^^^ k).extractLsb' (48 - 6 * (b.val + 1)) 6)) ∧
  (∀ (r r' : Half) (k k' : Subkey), permute eTable r ^^^ k = permute eTable r' ^^^ k' → f r k = f r' k') ∧
  f 0x00000000 0x000000000000 = 0xD8D8DBBC ∧ substitute 0 = 0xEFA72C4D ∧
  f 0xFFFFFFFF 0xFFFFFFFFFFFF = 0xD8D8DBBC ∧ f 0x00000000 0xFFFFFFFFFFFF = 0x38DBF9CB ∧
  (permute eTable 0xF0AAF0AA ^^^ 0x1B02EFFC7072 = 0x6117BA866527 ∧
   substitute 0x6117BA866527 = 0x5C82B597 ∧ f 0xF0AAF0AA 0x1B02EFFC7072 = 0x234AA9BB)

/-- R122: each round rotates the previous round's halves by its count, SK[r-1] is PC-2 of the rotated halves, and so
the halves of round n are C_0 and D_0 rotated by the cumulative count; the example. -/
def Obligations.SubkeysFollowTheCumulativeRotation : Prop :=
  (∀ (key : Block) (i : Fin 16),
    keyHalves key (i.val + 1) i.isLt =
      (rotateLeft (keyHalves key i.val (Nat.le_of_lt i.isLt)).1 (shiftCount i),
       rotateLeft (keyHalves key i.val (Nat.le_of_lt i.isLt)).2 (shiftCount i)) ∧
    (KS key)[i] =
      permute pc2Table ((keyHalves key (i.val + 1) i.isLt).1 ++ (keyHalves key (i.val + 1) i.isLt).2)) ∧
  (∀ (key : Block) (i : Fin 16),
    keyHalves key (i.val + 1) i.isLt =
      (rotateLeft (initialKeyHalves key).1
        (#v[1, 2, 4, 6, 8, 10, 12, 14, 15, 17, 19, 21, 23, 25, 27, 28][i]),
       rotateLeft (initialKeyHalves key).2
        (#v[1, 2, 4, 6, 8, 10, 12, 14, 15, 17, 19, 21, 23, 25, 27, 28][i]))) ∧
  (initialKeyHalves 0x133457799BBCDFF1 = (0xF0CCAAF, 0x556678F) ∧
   keyHalves 0x133457799BBCDFF1 1 (by decide) = (0xE19955F, 0xAACCF1E) ∧
   (KS 0x133457799BBCDFF1)[0] = 0x1B02EFFC7072)

/-- The subkey of round r, 1..16: SK[r-1] to encrypt and SK[16-r] to decrypt (R125). -/
def Obligations.RoundKeySelection : Prop :=
  ∀ (sk : Vector Subkey 16) (r : Nat) (h1 : 1 ≤ r) (h : r ≤ 16),
    roundKey .encrypt sk ⟨r - 1, by omega⟩ = sk[r - 1] ∧
    roundKey .decrypt sk ⟨r - 1, by omega⟩ = sk[16 - r]

/-- R124: two keys that differ only in the bits at multiples of 8 have the same subkeys and identical runs; the
example. -/
def Obligations.KeyBitsAtMultiplesOfEightAreIgnored : Prop :=
  (∀ key key' : Block,
    (∀ i : Nat, 1 ≤ i → i ≤ 64 → i % 8 ≠ 0 → desBit key i = desBit key' i) →
    KS key = KS key' ∧ ∀ (blk : Block) (d : Dir), RUN blk key d = RUN blk key' d) ∧
  KS 0x133457799BBCDFF1 = KS 0x123457799ABCDEF0

/-- R126: where C_0 and D_0 are each all zeros or all ones, every rotation leaves them unchanged, all subkeys are equal,
ENC and DEC give the same result and encrypting twice returns the block; the rule's keys are such keys; the standard key
has 16 distinct subkeys; and C_16 = C_0 and D_16 = D_0 for every key. -/
def Obligations.ConstantKeyHalvesMakeEncryptionItsOwnInverse : Prop :=
  (∀ key : Block,
    ((initialKeyHalves key).1 = 0 ∨ (initialKeyHalves key).1 = BitVec.allOnes 28) →
    ((initialKeyHalves key).2 = 0 ∨ (initialKeyHalves key).2 = BitVec.allOnes 28) →
    (∀ (n : Nat) (h : n ≤ 16), keyHalves key n h = initialKeyHalves key) ∧
    (∀ i j : Fin 16, (KS key)[i] = (KS key)[j]) ∧
    ∀ blk : Block, runOut blk key .encrypt = runOut blk key .decrypt ∧
      runOut (runOut blk key .encrypt) key .encrypt = blk) ∧
  (initialKeyHalves 0x0101010101010101 = (0, 0) ∧
   initialKeyHalves 0xFEFEFEFEFEFEFEFE = (BitVec.allOnes 28, BitVec.allOnes 28) ∧
   initialKeyHalves 0x1F1F1F1F0E0E0E0E = (0, BitVec.allOnes 28) ∧
   initialKeyHalves 0xE0E0E0E0F1F1F1F1 = (BitVec.allOnes 28, 0)) ∧
  (∀ i : Fin 16, (KS 0x0000000000000000)[i] = 0 ∧ (KS 0x0101010101010101)[i] = 0) ∧
  (∀ i j : Fin 16, (KS 0x133457799BBCDFF1)[i] = (KS 0x133457799BBCDFF1)[j] → i = j) ∧
  (∀ key : Block, keyHalves key 16 (Nat.le_refl 16) = initialKeyHalves key)

/-- R170: decrypting an encrypted block under the same key returns it; and the decrypt run's pairs are the encrypt
run's in reverse order with their halves swapped. -/
def Obligations.DecryptionUndoesEncryption : Prop :=
  ∀ blk key : Block,
    runOut (runOut blk key .encrypt) key .decrypt = blk ∧
    ∀ (n : Nat) (h : n ≤ 16),
      runPair (runOut blk key .encrypt) key .decrypt n h =
        ((runPair blk key .encrypt (16 - n) (Nat.sub_le 16 n)).2,
         (runPair blk key .encrypt (16 - n) (Nat.sub_le 16 n)).1)

/-- R171: complementing block and key complements the result, every subkey and every half, and leaves every f-output;
the example. -/
def Obligations.ComplementedInputsGiveTheComplementedResult : Prop :=
  (∀ blk key : Block, runOut (~~~blk) (~~~key) .encrypt = ~~~(runOut blk key .encrypt)) ∧
  (∀ (key : Block) (i : Fin 16), (KS (~~~key))[i] = ~~~(KS key)[i]) ∧
  (∀ (r : Half) (k : Subkey),
    permute eTable (~~~r) ^^^ ~~~k = permute eTable r ^^^ k ∧ f (~~~r) (~~~k) = f r k) ∧
  (∀ (blk key : Block) (n : Nat) (h : n ≤ 16),
    runPair (~~~blk) (~~~key) .encrypt n h =
      (~~~(runPair blk key .encrypt n h).1, ~~~(runPair blk key .encrypt n h).2)) ∧
  runOut 0xFEDCBA9876543210 0xECCBA8866443200E .encrypt = 0x7A17ECABF0F54BFA ∧
  0x7A17ECABF0F54BFA#64 = ~~~0x85E813540F0AB405#64

/-- R169: two runs started with the same BLK, KEY and DIR leave the same DOUT and TRACE, whatever happened before and
whatever is offered meanwhile. -/
def Obligations.RunsAreDeterministic : Prop :=
  ∀ (i : Instr) (s s' s1 s1' : State) (ps ps' : List PortIn), i ∈ [Instr.enc, Instr.dec] →
    s.Inv → s'.Inv → s.keyv = true → s'.keyv = true → s.blkv = true → s'.blkv = true →
    s.blk = s'.blk → s.key = s'.key →
    exec i s = .next s1 → exec i s' = .next s1' →
    (∀ p ∈ ps, p.rst = false) → (∀ p ∈ ps', p.rst = false) → ps.length = 17 → ps'.length = 17 →
    ∃ t t', edges ps s1 = .next t ∧ edges ps' s1' = .next t' ∧ t.dout = t'.dout ∧ t.trace = t'.trace

/-! ### Outputs -/

/-- R31: every field of STATUS stands in its bits, takes only its legal values, and bit 15 reads 0. -/
def Obligations.StatusWordLayout : Prop :=
  ∀ s : State,
    (statusWord s)[0] = s.busy ∧ (statusWord s)[1] = s.done ∧ (statusWord s)[2] = s.err ∧
    (statusWord s)[3] = s.dir.bit ∧ (statusWord s).extractLsb' 4 4 = s.errCode.bits ∧
    (statusWord s)[8] = s.keyv ∧ (statusWord s)[9] = s.blkv ∧
    ((statusWord s).extractLsb' 10 5).toNat = s.stage.val ∧ (statusWord s)[15] = false ∧
    s.errCode.bits.toNat ≤ 3 ∧ s.stage.val ≤ 17 ∧
    (s.Inv → (s.errCode.bits = 0 ↔ s.err = false))

/-- R37: the output ports as functions of the state and of rst and tr_idx; indices 18..31 show NONE; and reading has no
side effect: the trace index changes no step. -/
def Obligations.OutputPortsShowTheState : Prop :=
  ∀ (p : PortIn) (s : State),
    (∀ j : BitVec 5, edge { p with trIdx := j } s = edge p s) ∧
    ((outputs p s).cmdReady = true ↔ s.busy = false ∧ p.rst = false) ∧
    (outputs p s).status = statusWord s ∧ (outputs p s).dout = s.dout ∧
    (∀ j : Fin 18, p.trIdx.toNat = j.val →
      (outputs p s).trKind = s.trace[j].kind.bits ∧ (outputs p s).trIdxO = s.trace[j].idx ∧
      (outputs p s).trL = s.trace[j].l ∧ (outputs p s).trR = s.trace[j].r ∧
      (outputs p s).trK = s.trace[j].k ∧ (outputs p s).trF = s.trace[j].f ∧
      (outputs p s).trOut = s.trace[j].out) ∧
    (18 ≤ p.trIdx.toNat →
      (outputs p s).trKind = 0 ∧ (outputs p s).trIdxO = 0 ∧ (outputs p s).trL = 0 ∧
      (outputs p s).trR = 0 ∧ (outputs p s).trK = 0 ∧ (outputs p s).trF = 0 ∧ (outputs p s).trOut = 0)

/-- Byte k of a block holds DES bits 8k+1 to 8k+8, and the halves hold DES bits 1..32 and 33..64 (R56). -/
def Obligations.BytesAndHalvesAreBigEndian : Prop :=
  (∀ (v : Block) (k i : Fin 8), desBit (blockByte v k) (i.val + 1) = desBit v (8 * k.val + i.val + 1)) ∧
  (∀ (v : Block) (i : Fin 32),
    desBit (leftHalf v) (i.val + 1) = desBit v (i.val + 1) ∧
    desBit (rightHalf v) (i.val + 1) = desBit v (i.val + 33)) ∧
  (∀ v : Block, leftHalf v ++ rightHalf v = v)

/-! ### Whole-machine invariants -/

/-- The reset state is a legal state, with nothing to show of any run. -/
def Obligations.ResetStateIsLegal : Prop :=
  State.reset.Inv ∧ State.reset.HoldsRun

/-- Every step from a legal state leaves a legal state: the sequencing of R27, the flags of R31 and R32, the subkeys of
R29 and the trace forms of R33, R34 and R260 hold for ever. -/
def Obligations.StepKeepsLegalStates : Prop :=
  ∀ s t : State, s.Inv → step s = .next t → t.Inv

/-- From a legal state every step completes: no fault, no refusal (R220, R225). -/
def Obligations.LegalStatesNeverStop : Prop :=
  ∀ s : State, s.Inv → ∃ t, step s = .next t

/-- Every step keeps what DOUT, TRACE, L and R say of RUN: during a run they are RUN's so far, and with DONE = 1 they
are RUN's result and trace (R31, R160, R168, R260). -/
def Obligations.StepKeepsWhatTheMachineShowsOfTheRun : Prop :=
  ∀ s t : State, s.Inv → s.HoldsRun → step s = .next t → t.HoldsRun

/-- What the spec gives no value is never observed (R24, R25, R26, R38): two states that differ only in KEY and SK
while KEYV = 0, in BLK while BLKV = 0, and in L and R while no run is in progress, show the same outputs and step to
such states again, or stop alike. So the zeros chosen at reset (log entry 1) show nowhere. -/
def Obligations.UnloadedValuesAreNeverObserved : Prop :=
  ∀ s t : State, SameButUnloaded s t →
    (∀ p : PortIn, outputs p s = outputs p t) ∧
    ((∃ s' t', step s = .next s' ∧ step t = .next t' ∧ SameButUnloaded s' t') ∨
     (∃ e, step s = .fault e ∧ step t = .fault e))

/-! ### The host side -/

/-- The host's lines (R82): ENCRYPT and DECRYPT are their expansions; EXPECT, WAITDONE with BUSY = 0 and IDLE 0 take no
step; WAITDONE during a run and IDLE n + 1 take one step that offers nothing: during a run it performs the stage, else it
changes no element, and the script keeps WAITDONE or counts IDLE down. Which lines take a step is the model's reading
(DEDUCED, log entry 7). -/
def Obligations.PseudoLinesExpand : Prop :=
  (∀ key blk : Operand64, key.wf = true → blk.wf = true →
    ∃ k b : Block, key.value = .ok k ∧ blk.value = .ok b ∧
      scriptActions [.encrypt key blk] = .ok [.offer 0x1 k, .offer 0x2 b, .offer 0x4 0, .waitDone] ∧
      scriptActions [.encrypt key blk] = scriptActions [.ldkey key, .ldblk blk, .enc, .waitdone] ∧
      scriptActions [.decrypt key blk] = scriptActions [.ldkey key, .ldblk blk, .dec, .waitdone]) ∧
  (∀ (s : State) (rest : List HostAction) (o : Observable) (v : Nat),
    step { s with host := .expect o v :: rest } = step { s with host := rest } ∧
    step { s with host := .idle 0 :: rest } = step { s with host := rest } ∧
    (s.busy = false → step { s with host := .waitDone :: rest } = step { s with host := rest })) ∧
  (∀ (s : State) (rest : List HostAction) (n : Nat), s.busy = false →
    step { s with host := .idle (n + 1) :: rest } = .next { s with host := .idle n :: rest }) ∧
  (∀ (s : State) (rest : List HostAction) (n : Nat), s.busy = true →
    step { s with host := .waitDone :: rest } = performStage { s with host := .waitDone :: rest } ∧
    step { s with host := .idle (n + 1) :: rest } = performStage { s with host := .idle n :: rest })

/-- R84, R85, R86: textToBits puts the low 8 bits of character k in byte k and 0 past the end. bitsToHex fails exactly
where the bit count is no multiple of 4, and else digit k is the uppercase hex digit of bits 4k + 1 to 4k + 4, the first
the most significant; for a block, 16 digits. bitsToAscii fails exactly where the count is no multiple of 8, and else
code k is the value of bits 8k + 1 to 8k + 8; for a block, its bytes, and for textToBits of 8 byte characters, those
characters. -/
def Obligations.HostConversionsKeepBytesAndNibbles : Prop :=
  (∀ (codes : List Nat) (k : Fin 8),
    (blockByte (textToBits codes) k).toNat = codes.getD k.val 0 % 256) ∧
  (∀ bits : List Bool, bits.length % 4 = 0 →
    ∃ cs, bitsToHex bits = .ok cs ∧ cs.length = bits.length / 4 ∧
      ∀ k, k < cs.length →
        cs[k]? = "0123456789ABCDEF".toList[
          8 * (bits.getD (4 * k) false).toNat + 4 * (bits.getD (4 * k + 1) false).toNat +
          2 * (bits.getD (4 * k + 2) false).toNat + (bits.getD (4 * k + 3) false).toNat]?) ∧
  (∀ bits : List Bool, bits.length % 4 ≠ 0 → bitsToHex bits = .error .invalidLength) ∧
  (∀ v : Block, ∃ cs, bitsToHex (bitSequence v) = .ok cs ∧ cs.length = 16 ∧
    ∀ k : Fin 16, cs[k.val]? = "0123456789ABCDEF".toList[(v.extractLsb' (60 - 4 * k.val) 4).toNat]?) ∧
  (∀ bits : List Bool, bits.length % 8 = 0 →
    ∃ codes, bitsToAscii bits = .ok codes ∧ codes.length = bits.length / 8 ∧
      ∀ k, k < codes.length →
        codes[k]? = some (
          128 * (bits.getD (8 * k) false).toNat + 64 * (bits.getD (8 * k + 1) false).toNat +
          32 * (bits.getD (8 * k + 2) false).toNat + 16 * (bits.getD (8 * k + 3) false).toNat +
          8 * (bits.getD (8 * k + 4) false).toNat + 4 * (bits.getD (8 * k + 5) false).toNat +
          2 * (bits.getD (8 * k + 6) false).toNat + (bits.getD (8 * k + 7) false).toNat)) ∧
  (∀ bits : List Bool, bits.length % 8 ≠ 0 → bitsToAscii bits = .error .invalidLength) ∧
  (∀ v : Block,
    bitsToAscii (bitSequence v) = .ok ((List.finRange 8).map fun k => (blockByte v k).toNat)) ∧
  (∀ codes : List Nat, codes.length = 8 → (∀ c ∈ codes, c < 256) →
    bitsToAscii (bitSequence (textToBits codes)) = .ok codes)
end

