-- ==== Sys2Proof/Laws/State.lean ====
section
/-! SUPPORT. One lemma per field for every update of State, so that no later proof unfolds an update. -/

namespace Sys2Proof.Machine

/-! `raiseError` -/

@[simp] theorem raiseError_key (c : ErrCode) (s : State) : (raiseError c s).key = s.key := by
  unfold raiseError; split <;> rfl

@[simp] theorem raiseError_keyv (c : ErrCode) (s : State) : (raiseError c s).keyv = s.keyv := by
  unfold raiseError; split <;> rfl

@[simp] theorem raiseError_sk (c : ErrCode) (s : State) : (raiseError c s).sk = s.sk := by
  unfold raiseError; split <;> rfl

@[simp] theorem raiseError_blk (c : ErrCode) (s : State) : (raiseError c s).blk = s.blk := by
  unfold raiseError; split <;> rfl

@[simp] theorem raiseError_blkv (c : ErrCode) (s : State) : (raiseError c s).blkv = s.blkv := by
  unfold raiseError; split <;> rfl

@[simp] theorem raiseError_l (c : ErrCode) (s : State) : (raiseError c s).l = s.l := by
  unfold raiseError; split <;> rfl

@[simp] theorem raiseError_r (c : ErrCode) (s : State) : (raiseError c s).r = s.r := by
  unfold raiseError; split <;> rfl

@[simp] theorem raiseError_dir (c : ErrCode) (s : State) : (raiseError c s).dir = s.dir := by
  unfold raiseError; split <;> rfl

@[simp] theorem raiseError_stage (c : ErrCode) (s : State) : (raiseError c s).stage = s.stage := by
  unfold raiseError; split <;> rfl

@[simp] theorem raiseError_busy (c : ErrCode) (s : State) : (raiseError c s).busy = s.busy := by
  unfold raiseError; split <;> rfl

@[simp] theorem raiseError_done (c : ErrCode) (s : State) : (raiseError c s).done = s.done := by
  unfold raiseError; split <;> rfl

@[simp] theorem raiseError_dout (c : ErrCode) (s : State) : (raiseError c s).dout = s.dout := by
  unfold raiseError; split <;> rfl

@[simp] theorem raiseError_trace (c : ErrCode) (s : State) : (raiseError c s).trace = s.trace := by
  unfold raiseError; split <;> rfl

@[simp] theorem raiseError_host (c : ErrCode) (s : State) : (raiseError c s).host = s.host := by
  unfold raiseError; split <;> rfl

/-! `clearError` -/

@[simp] theorem clearError_key (s : State) : (clearError s).key = s.key := rfl

@[simp] theorem clearError_keyv (s : State) : (clearError s).keyv = s.keyv := rfl

@[simp] theorem clearError_sk (s : State) : (clearError s).sk = s.sk := rfl

@[simp] theorem clearError_blk (s : State) : (clearError s).blk = s.blk := rfl

@[simp] theorem clearError_blkv (s : State) : (clearError s).blkv = s.blkv := rfl

@[simp] theorem clearError_l (s : State) : (clearError s).l = s.l := rfl

@[simp] theorem clearError_r (s : State) : (clearError s).r = s.r := rfl

@[simp] theorem clearError_dir (s : State) : (clearError s).dir = s.dir := rfl

@[simp] theorem clearError_stage (s : State) : (clearError s).stage = s.stage := rfl

@[simp] theorem clearError_busy (s : State) : (clearError s).busy = s.busy := rfl

@[simp] theorem clearError_done (s : State) : (clearError s).done = s.done := rfl

@[simp] theorem clearError_err (s : State) : (clearError s).err = false := rfl

@[simp] theorem clearError_errCode (s : State) : (clearError s).errCode = .none := rfl

@[simp] theorem clearError_dout (s : State) : (clearError s).dout = s.dout := rfl

@[simp] theorem clearError_trace (s : State) : (clearError s).trace = s.trace := rfl

@[simp] theorem clearError_host (s : State) : (clearError s).host = s.host := rfl

/-! `ipStage` -/

@[simp] theorem ipStage_key (s : State) : (ipStage s).key = s.key := rfl

@[simp] theorem ipStage_keyv (s : State) : (ipStage s).keyv = s.keyv := rfl

@[simp] theorem ipStage_sk (s : State) : (ipStage s).sk = s.sk := rfl

@[simp] theorem ipStage_blk (s : State) : (ipStage s).blk = s.blk := rfl

@[simp] theorem ipStage_blkv (s : State) : (ipStage s).blkv = s.blkv := rfl

@[simp] theorem ipStage_l (s : State) : (ipStage s).l = leftHalf (permute ipTable s.blk) := rfl

@[simp] theorem ipStage_r (s : State) : (ipStage s).r = rightHalf (permute ipTable s.blk) := rfl

@[simp] theorem ipStage_dir (s : State) : (ipStage s).dir = s.dir := rfl

@[simp] theorem ipStage_stage (s : State) : (ipStage s).stage = s.stage := rfl

@[simp] theorem ipStage_busy (s : State) : (ipStage s).busy = s.busy := rfl

@[simp] theorem ipStage_done (s : State) : (ipStage s).done = s.done := rfl

@[simp] theorem ipStage_err (s : State) : (ipStage s).err = s.err := rfl

@[simp] theorem ipStage_errCode (s : State) : (ipStage s).errCode = s.errCode := rfl

@[simp] theorem ipStage_dout (s : State) : (ipStage s).dout = s.dout := rfl

@[simp] theorem ipStage_trace (s : State) :
    (ipStage s).trace = s.trace.set 0 (.ofInit (leftHalf (permute ipTable s.blk)) (rightHalf (permute ipTable s.blk))) :=
  rfl

@[simp] theorem ipStage_host (s : State) : (ipStage s).host = s.host := rfl

/-! `roundStage` -/

@[simp] theorem roundStage_key (i : Fin 16) (s : State) : (roundStage i s).key = s.key := rfl

@[simp] theorem roundStage_keyv (i : Fin 16) (s : State) : (roundStage i s).keyv = s.keyv := rfl

@[simp] theorem roundStage_sk (i : Fin 16) (s : State) : (roundStage i s).sk = s.sk := rfl

@[simp] theorem roundStage_blk (i : Fin 16) (s : State) : (roundStage i s).blk = s.blk := rfl

@[simp] theorem roundStage_blkv (i : Fin 16) (s : State) : (roundStage i s).blkv = s.blkv := rfl

@[simp] theorem roundStage_l (i : Fin 16) (s : State) : (roundStage i s).l = s.r := rfl

@[simp] theorem roundStage_r (i : Fin 16) (s : State) :
    (roundStage i s).r = xorBits s.l (f s.r (roundKey s.dir s.sk i)) :=
  rfl

@[simp] theorem roundStage_dir (i : Fin 16) (s : State) : (roundStage i s).dir = s.dir := rfl

@[simp] theorem roundStage_stage (i : Fin 16) (s : State) :
    (roundStage i s).stage = ⟨i.val + 2, Nat.add_lt_add_right i.isLt 2⟩ :=
  rfl

@[simp] theorem roundStage_busy (i : Fin 16) (s : State) : (roundStage i s).busy = s.busy := rfl

@[simp] theorem roundStage_done (i : Fin 16) (s : State) : (roundStage i s).done = s.done := rfl

@[simp] theorem roundStage_err (i : Fin 16) (s : State) : (roundStage i s).err = s.err := rfl

@[simp] theorem roundStage_errCode (i : Fin 16) (s : State) : (roundStage i s).errCode = s.errCode := rfl

@[simp] theorem roundStage_dout (i : Fin 16) (s : State) : (roundStage i s).dout = s.dout := rfl

@[simp] theorem roundStage_trace (i : Fin 16) (s : State) :
    (roundStage i s).trace = s.trace.set (i.val + 1) (.ofRound (BitVec.ofNat 5 (i.val + 1)) s.r
      (xorBits s.l (f s.r (roundKey s.dir s.sk i))) (roundKey s.dir s.sk i) (f s.r (roundKey s.dir s.sk i))) :=
  rfl

@[simp] theorem roundStage_host (i : Fin 16) (s : State) : (roundStage i s).host = s.host := rfl

/-! `fpStage` -/

@[simp] theorem fpStage_key (s : State) : (fpStage s).key = s.key := rfl

@[simp] theorem fpStage_keyv (s : State) : (fpStage s).keyv = s.keyv := rfl

@[simp] theorem fpStage_sk (s : State) : (fpStage s).sk = s.sk := rfl

@[simp] theorem fpStage_blk (s : State) : (fpStage s).blk = s.blk := rfl

@[simp] theorem fpStage_blkv (s : State) : (fpStage s).blkv = s.blkv := rfl

@[simp] theorem fpStage_l (s : State) : (fpStage s).l = s.l := rfl

@[simp] theorem fpStage_r (s : State) : (fpStage s).r = s.r := rfl

@[simp] theorem fpStage_dir (s : State) : (fpStage s).dir = s.dir := rfl

@[simp] theorem fpStage_stage (s : State) : (fpStage s).stage = 0 := rfl

@[simp] theorem fpStage_busy (s : State) : (fpStage s).busy = false := rfl

@[simp] theorem fpStage_done (s : State) : (fpStage s).done = true := rfl

@[simp] theorem fpStage_err (s : State) : (fpStage s).err = s.err := rfl

@[simp] theorem fpStage_errCode (s : State) : (fpStage s).errCode = s.errCode := rfl

@[simp] theorem fpStage_dout (s : State) : (fpStage s).dout = permute fpTable (s.r ++ s.l) := rfl

@[simp] theorem fpStage_trace (s : State) :
    (fpStage s).trace = s.trace.set 17 (.ofFinal (permute fpTable (s.r ++ s.l))) :=
  rfl

@[simp] theorem fpStage_host (s : State) : (fpStage s).host = s.host := rfl

/-! `beginRun` -/

@[simp] theorem beginRun_key (d : Dir) (s : State) : (beginRun d s).key = s.key := rfl

@[simp] theorem beginRun_keyv (d : Dir) (s : State) : (beginRun d s).keyv = s.keyv := rfl

@[simp] theorem beginRun_sk (d : Dir) (s : State) : (beginRun d s).sk = s.sk := rfl

@[simp] theorem beginRun_blk (d : Dir) (s : State) : (beginRun d s).blk = s.blk := rfl

@[simp] theorem beginRun_blkv (d : Dir) (s : State) : (beginRun d s).blkv = s.blkv := rfl

@[simp] theorem beginRun_l (d : Dir) (s : State) :
    (beginRun d s).l = leftHalf (permute ipTable s.blk) :=
  rfl

@[simp] theorem beginRun_r (d : Dir) (s : State) :
    (beginRun d s).r = rightHalf (permute ipTable s.blk) :=
  rfl

@[simp] theorem beginRun_dir (d : Dir) (s : State) : (beginRun d s).dir = d := rfl

@[simp] theorem beginRun_stage (d : Dir) (s : State) : (beginRun d s).stage = 1 := rfl

@[simp] theorem beginRun_busy (d : Dir) (s : State) : (beginRun d s).busy = true := rfl

@[simp] theorem beginRun_done (d : Dir) (s : State) : (beginRun d s).done = false := rfl

@[simp] theorem beginRun_err (d : Dir) (s : State) : (beginRun d s).err = s.err := rfl

@[simp] theorem beginRun_errCode (d : Dir) (s : State) : (beginRun d s).errCode = s.errCode := rfl

@[simp] theorem beginRun_dout (d : Dir) (s : State) : (beginRun d s).dout = s.dout := rfl

@[simp] theorem beginRun_trace (d : Dir) (s : State) :
    (beginRun d s).trace = (Vector.replicate 18 TraceEntry.empty).set 0
      (.ofInit (leftHalf (permute ipTable s.blk)) (rightHalf (permute ipTable s.blk))) :=
  rfl

@[simp] theorem beginRun_host (d : Dir) (s : State) : (beginRun d s).host = s.host := rfl

/-! `resetEdge` -/

@[simp] theorem resetEdge_key (s : State) : (resetEdge s).key = State.reset.key := rfl

@[simp] theorem resetEdge_keyv (s : State) : (resetEdge s).keyv = State.reset.keyv := rfl

@[simp] theorem resetEdge_sk (s : State) : (resetEdge s).sk = State.reset.sk := rfl

@[simp] theorem resetEdge_blk (s : State) : (resetEdge s).blk = State.reset.blk := rfl

@[simp] theorem resetEdge_blkv (s : State) : (resetEdge s).blkv = State.reset.blkv := rfl

@[simp] theorem resetEdge_l (s : State) : (resetEdge s).l = State.reset.l := rfl

@[simp] theorem resetEdge_r (s : State) : (resetEdge s).r = State.reset.r := rfl

@[simp] theorem resetEdge_dir (s : State) : (resetEdge s).dir = State.reset.dir := rfl

@[simp] theorem resetEdge_stage (s : State) : (resetEdge s).stage = State.reset.stage := rfl

@[simp] theorem resetEdge_busy (s : State) : (resetEdge s).busy = State.reset.busy := rfl

@[simp] theorem resetEdge_done (s : State) : (resetEdge s).done = State.reset.done := rfl

@[simp] theorem resetEdge_err (s : State) : (resetEdge s).err = State.reset.err := rfl

@[simp] theorem resetEdge_errCode (s : State) : (resetEdge s).errCode = State.reset.errCode := rfl

@[simp] theorem resetEdge_dout (s : State) : (resetEdge s).dout = State.reset.dout := rfl

@[simp] theorem resetEdge_trace (s : State) : (resetEdge s).trace = State.reset.trace := rfl

@[simp] theorem resetEdge_host (s : State) : (resetEdge s).host = s.host := rfl

/-! `offerWord` -/

@[simp] theorem offerWord_key (w : Nat) (s : State) : (offerWord w s).key = s.key := rfl

@[simp] theorem offerWord_keyv (w : Nat) (s : State) : (offerWord w s).keyv = s.keyv := rfl

@[simp] theorem offerWord_sk (w : Nat) (s : State) : (offerWord w s).sk = s.sk := rfl

@[simp] theorem offerWord_blk (w : Nat) (s : State) : (offerWord w s).blk = s.blk := rfl

@[simp] theorem offerWord_blkv (w : Nat) (s : State) : (offerWord w s).blkv = s.blkv := rfl

@[simp] theorem offerWord_l (w : Nat) (s : State) : (offerWord w s).l = s.l := rfl

@[simp] theorem offerWord_r (w : Nat) (s : State) : (offerWord w s).r = s.r := rfl

@[simp] theorem offerWord_dir (w : Nat) (s : State) : (offerWord w s).dir = s.dir := rfl

@[simp] theorem offerWord_stage (w : Nat) (s : State) : (offerWord w s).stage = 0 := rfl

@[simp] theorem offerWord_busy (w : Nat) (s : State) : (offerWord w s).busy = false := rfl

@[simp] theorem offerWord_done (w : Nat) (s : State) : (offerWord w s).done = s.done := rfl

@[simp] theorem offerWord_err (w : Nat) (s : State) : (offerWord w s).err = s.err := rfl

@[simp] theorem offerWord_errCode (w : Nat) (s : State) : (offerWord w s).errCode = s.errCode := rfl

@[simp] theorem offerWord_dout (w : Nat) (s : State) : (offerWord w s).dout = s.dout := rfl

@[simp] theorem offerWord_trace (w : Nat) (s : State) : (offerWord w s).trace = s.trace := rfl

@[simp] theorem offerWord_host (w : Nat) (s : State) :
    (offerWord w s).host = .offer (opField (BitVec.ofNat 68 w)) (dataField (BitVec.ofNat 68 w)) :: s.host :=
  rfl

/-- With ERR = 0 the error is recorded (60_exceptions.md R226). -/
theorem raiseError_of_clear (c : ErrCode) (s : State) (h : s.err = false) :
    raiseError c s = { s with err := true, errCode := c } := by
  simp [raiseError, h]

/-- With ERR = 1 nothing changes (R226). -/
theorem raiseError_of_set (c : ErrCode) (s : State) (h : s.err = true) : raiseError c s = s := by
  simp [raiseError, h]

/-- After the error effect ERR is set (R226). -/
@[simp] theorem raiseError_err (c : ErrCode) (s : State) : (raiseError c s).err = true := by
  cases h : s.err <;> simp [raiseError, h]

/-- ERRCODE after the error effect (R226). -/
theorem raiseError_errCode (c : ErrCode) (s : State) :
    (raiseError c s).errCode = if s.err then s.errCode else c := by
  cases h : s.err <;> simp [raiseError, h]

end Sys2Proof.Machine
end

