-- ==== Sys2Proof/Laws/Ops.lean ====
section
/-! SUPPORT. What each shared operation can do, said once: the arbitration of an edge, the stages, the start, the
commands, and the inversion lemma of one edge, which later proofs cite instead of unfolding the step. -/

namespace Sys2Proof.Machine

/-! Arbitration (44_commands.md R190) -/

theorem arbitrate_of_reset {p : PortIn} (b : Bool) (h : p.rst = true) : arbitrate p b = .reset := by
  simp [arbitrate, h]

theorem arbitrate_of_busy {p : PortIn} (h : p.rst = false) : arbitrate p true = .stage := by
  simp [arbitrate, h]

theorem arbitrate_of_command {p : PortIn} (h : p.rst = false) (hv : p.cmdValid = true) :
    arbitrate p false = .accept (decode (commandWord p.cmdOp p.cmdData)) := by
  simp [arbitrate, h, hv]

theorem arbitrate_of_quiet {p : PortIn} (h : p.rst = false) (hv : p.cmdValid = false) :
    arbitrate p false = .idle := by
  simp [arbitrate, h, hv]

/-- Everything arbitration can answer. -/
theorem arbitrate_cases (p : PortIn) (b : Bool) :
    (p.rst = true ∧ arbitrate p b = .reset) ∨
    (p.rst = false ∧ b = true ∧ arbitrate p b = .stage) ∨
    (p.rst = false ∧ b = false ∧ p.cmdValid = true ∧
      arbitrate p b = .accept (decode (commandWord p.cmdOp p.cmdData))) ∨
    (p.rst = false ∧ b = false ∧ p.cmdValid = false ∧ arbitrate p b = .idle) := by
  cases hr : p.rst <;> cases b <;> cases hv : p.cmdValid <;> simp [arbitrate, hr, hv]

/-- An accepted command is the decoded one, and the machine was ready for it. -/
theorem arbitrate_accept {p : PortIn} {b : Bool} {i : Instr} (h : arbitrate p b = .accept i) :
    p.rst = false ∧ b = false ∧ p.cmdValid = true ∧ decode (commandWord p.cmdOp p.cmdData) = i := by
  rcases arbitrate_cases p b with ⟨_, hc⟩ | ⟨_, _, hc⟩ | ⟨hr, hb, hv, hc⟩ | ⟨_, _, _, hc⟩ <;>
    rw [hc] at h <;> simp_all

/-! The stages -/

theorem performStage_round (i : Fin 16) (s : State) (h : s.stage.val = i.val + 1) :
    performStage s = .next (roundStage i s) := by
  have h0 : s.stage.val ≠ 0 := by omega
  have h16 : s.stage.val ≤ 16 := by have := i.isLt; omega
  have hi : (⟨s.stage.val - 1, by omega⟩ : Fin 16) = i := by apply Fin.ext; simp [h]
  simp [performStage, h0, h16, hi]

theorem performStage_final (s : State) (h : s.stage.val = 17) : performStage s = .next (fpStage s) := by
  simp [performStage, h]

theorem performStage_zero (s : State) (h : s.stage.val = 0) :
    performStage s = .fault .busyWithoutStage := by
  simp [performStage, h]

/-- Everything a busy step can do. -/
theorem performStage_next {s t : State} (h : performStage s = .next t) :
    (∃ i : Fin 16, s.stage.val = i.val + 1 ∧ t = roundStage i s) ∨ (s.stage.val = 17 ∧ t = fpStage s) := by
  by_cases h0 : s.stage.val = 0
  · rw [performStage_zero s h0] at h; cases h
  by_cases h17 : s.stage.val = 17
  · rw [performStage_final s h17] at h; cases h; exact .inr ⟨h17, rfl⟩
  · have hlt : s.stage.val - 1 < 16 := by omega
    have hs : s.stage.val = (⟨s.stage.val - 1, hlt⟩ : Fin 16).val + 1 := by
      simp only; omega
    rw [performStage_round _ s hs] at h
    cases h
    exact .inl ⟨_, hs, rfl⟩

/-! The start (44_commands.md R199) -/

theorem startRun_of_no_key (d : Dir) (s : State) (h : s.keyv = false) :
    startRun d s = raiseError .noKey s := by
  simp [startRun, h]

theorem startRun_of_no_block (d : Dir) (s : State) (hk : s.keyv = true) (hb : s.blkv = false) :
    startRun d s = raiseError .noBlock s := by
  simp [startRun, hk, hb]

theorem startRun_of_loaded (d : Dir) (s : State) (hk : s.keyv = true) (hb : s.blkv = true) :
    startRun d s = beginRun d s := by
  simp [startRun, hk, hb]

/-- Everything a start command can do. -/
theorem startRun_cases (d : Dir) (s : State) :
    (s.keyv = false ∧ startRun d s = raiseError .noKey s) ∨
    (s.keyv = true ∧ s.blkv = false ∧ startRun d s = raiseError .noBlock s) ∨
    (s.keyv = true ∧ s.blkv = true ∧ startRun d s = beginRun d s) := by
  cases hk : s.keyv <;> cases hb : s.blkv <;> simp [startRun, hk, hb]

/-! The commands -/

/-- The state a command leaves. -/
def afterCommand (i : Instr) (s : State) : State :=
  match i with
  | .nop => s
  | .ldkey data => { s with key := data, sk := KS data, keyv := true }
  | .ldblk data => { s with blk := data, blkv := true }
  | .clrerr => clearError s
  | .enc => startRun .encrypt s
  | .dec => startRun .decrypt s
  | .reserved6 => raiseError .illegalCmd s
  | .reserved7 => raiseError .illegalCmd s
  | .reserved8 => raiseError .illegalCmd s
  | .reserved9 => raiseError .illegalCmd s
  | .reservedA => raiseError .illegalCmd s
  | .reservedB => raiseError .illegalCmd s
  | .reservedC => raiseError .illegalCmd s
  | .reservedD => raiseError .illegalCmd s
  | .reservedE => raiseError .illegalCmd s
  | .reservedF => raiseError .illegalCmd s

/-- Every accepted command completes, with the one state it leaves. -/
theorem exec_eq (i : Instr) (s : State) : exec i s = .next (afterCommand i s) := by
  cases i <;> rfl

/-- A reserved op is one that raises ILLEGAL_CMD and does nothing else. -/
theorem afterCommand_of_reserved {i : Instr} (h : 6 ≤ (opcode i).toNat) (s : State) :
    afterCommand i s = raiseError .illegalCmd s := by
  cases i <;> first | rfl | (exfalso; revert h; decide) | (exfalso; simp [opcode] at h)

/-- Everything a command can do. -/
theorem afterCommand_cases (i : Instr) (s : State) :
    (i = .nop ∧ afterCommand i s = s) ∨
    (∃ key, i = .ldkey key ∧ afterCommand i s = { s with key := key, sk := KS key, keyv := true }) ∨
    (∃ blk, i = .ldblk blk ∧ afterCommand i s = { s with blk := blk, blkv := true }) ∨
    (i = .clrerr ∧ afterCommand i s = clearError s) ∨
    (i = .enc ∧ afterCommand i s = startRun .encrypt s) ∨
    (i = .dec ∧ afterCommand i s = startRun .decrypt s) ∨
    (6 ≤ (opcode i).toNat ∧ afterCommand i s = raiseError .illegalCmd s) := by
  cases i <;> simp [afterCommand, opcode]

/-! One edge -/

/-- Everything an edge can do. -/
theorem edge_next {p : PortIn} {s t : State} (h : edge p s = .next t) :
    (p.rst = true ∧ t = resetEdge s) ∨
    (p.rst = false ∧ s.busy = true ∧ ∃ i : Fin 16, s.stage.val = i.val + 1 ∧ t = roundStage i s) ∨
    (p.rst = false ∧ s.busy = true ∧ s.stage.val = 17 ∧ t = fpStage s) ∨
    (p.rst = false ∧ s.busy = false ∧ p.cmdValid = true ∧
      arbitrate p s.busy = .accept (decode (commandWord p.cmdOp p.cmdData)) ∧
      t = afterCommand (decode (commandWord p.cmdOp p.cmdData)) s) ∨
    (p.rst = false ∧ s.busy = false ∧ p.cmdValid = false ∧ t = s) := by
  rcases arbitrate_cases p s.busy with ⟨hr, hc⟩ | ⟨hr, hb, hc⟩ | ⟨hr, hb, hv, hc⟩ | ⟨hr, hb, hv, hc⟩ <;>
    simp only [edge, hc] at h
  · cases h; exact .inl ⟨hr, rfl⟩
  · rcases performStage_next h with ⟨i, hi, ht⟩ | ⟨hs, ht⟩
    · exact .inr (.inl ⟨hr, hb, i, hi, ht⟩)
    · exact .inr (.inr (.inl ⟨hr, hb, hs, ht⟩))
  · rw [exec_eq] at h
    cases h
    exact .inr (.inr (.inr (.inl ⟨hr, hb, hv, hc, rfl⟩)))
  · cases h; exact .inr (.inr (.inr (.inr ⟨hr, hb, hv, rfl⟩)))

/-- The state a fetch with `withFetchWord` leaves for the step. -/
theorem withFetchWord_eq (s : State) (nbits w : Nat) : s.withFetchWord nbits w = offerWord (w % 2 ^ nbits) s :=
  rfl

/-! The host agent -/

@[simp] theorem hostDrive_nil (b : Bool) : hostDrive b [] = (.quiet, []) := rfl

@[simp] theorem hostDrive_drive (b : Bool) (p : PortIn) (rest : List HostAction) :
    hostDrive b (.drive p :: rest) = (p, rest) := rfl

@[simp] theorem hostDrive_offer_ready (op : Opcode) (data : Block) (rest : List HostAction) :
    hostDrive false (.offer op data :: rest) = (.command op data, rest) := rfl

@[simp] theorem hostDrive_offer_busy (op : Opcode) (data : Block) (rest : List HostAction) :
    hostDrive true (.offer op data :: rest) = (.command op data, .offer op data :: rest) := rfl

@[simp] theorem hostDrive_idle_zero (b : Bool) (rest : List HostAction) :
    hostDrive b (.idle 0 :: rest) = hostDrive b rest := rfl

@[simp] theorem hostDrive_idle_succ (b : Bool) (n : Nat) (rest : List HostAction) :
    hostDrive b (.idle (n + 1) :: rest) = (.quiet, .idle n :: rest) := rfl

@[simp] theorem hostDrive_waitDone_ready (rest : List HostAction) :
    hostDrive false (.waitDone :: rest) = hostDrive false rest := rfl

@[simp] theorem hostDrive_waitDone_busy (rest : List HostAction) :
    hostDrive true (.waitDone :: rest) = (.quiet, .waitDone :: rest) := rfl

@[simp] theorem hostDrive_expect (b : Bool) (o : Observable) (v : Nat) (rest : List HostAction) :
    hostDrive b (.expect o v :: rest) = hostDrive b rest := rfl

end Sys2Proof.Machine
end

