-- ==== Sys2Proof/Laws/Primitives.lean ====
section
/-! SUPPORT. The laws of the datapath primitives, bit by bit, and of the pieces of a command word. -/

namespace Sys2Proof.Machine

/-- The table's length is its output width (20_memory.md R52). -/
theorem PermTable.length_entries {n m : Nat} (T : PermTable n m) : T.entries.length = m := by
  have h := T.wf
  simp only [tableWf, Bool.and_eq_true, beq_iff_eq] at h
  exact h.1

/-- Every entry of a table lies in its input (R52). -/
theorem PermTable.entry_bounds {n m : Nat} (T : PermTable n m) {t : Nat} (ht : t ∈ T.entries) :
    1 ≤ t ∧ t ≤ n := by
  have h := T.wf
  simp only [tableWf, Bool.and_eq_true, List.all_eq_true, decide_eq_true_eq] at h
  exact h.2 t ht

/-- Sequence position p of the output is the DES bit of the input that entry p + 1 names (40_permutation.md R100). -/
theorem getMsbD_permute {n m : Nat} (T : PermTable n m) (v : BitVec n) (p : Nat) :
    (permute T v).getMsbD p = (T.entries.map (desBit v)).getD p false := by
  simp only [permute, BitVec.getMsbD_cast, BitVec.getMsbD_ofBoolListBE]

theorem getMsbD_permute_lt {n m : Nat} (T : PermTable n m) (v : BitVec n) {p : Nat} (hp : p < m) :
    (permute T v).getMsbD p = desBit v (T.entries[p]'(by rw [T.length_entries]; exact hp)) := by
  have h : p < T.entries.length := by rw [T.length_entries]; exact hp
  rw [getMsbD_permute, List.getD_eq_getElem _ _ (by simpa using h)]
  simp

/-- Two values that agree on the DES bits a table selects have the same output. -/
theorem permute_congr {n m : Nat} (T : PermTable n m) {v w : BitVec n}
    (h : ∀ t ∈ T.entries, desBit v t = desBit w t) : permute T v = permute T w := by
  apply BitVec.eq_of_getMsbD_eq
  intro p hp
  rw [getMsbD_permute_lt T v hp, getMsbD_permute_lt T w hp]
  exact h _ (List.getElem_mem _)

/-- A permutation commutes with xor. -/
theorem permute_xor {n m : Nat} (T : PermTable n m) (v w : BitVec n) :
    permute T (v ^^^ w) = permute T v ^^^ permute T w := by
  apply BitVec.eq_of_getMsbD_eq
  intro p hp
  rw [BitVec.getMsbD_xor, getMsbD_permute_lt T _ hp, getMsbD_permute_lt T v hp, getMsbD_permute_lt T w hp]
  simp [desBit]

/-- A permutation commutes with complement, because no entry leaves its input. -/
theorem permute_not {n m : Nat} (T : PermTable n m) (v : BitVec n) : permute T (~~~v) = ~~~(permute T v) := by
  apply BitVec.eq_of_getMsbD_eq
  intro p hp
  rw [BitVec.getMsbD_not, getMsbD_permute_lt T _ hp, getMsbD_permute_lt T v hp]
  obtain ⟨h1, hn⟩ := T.entry_bounds
    (List.getElem_mem (l := T.entries) (n := p) (by rw [T.length_entries]; exact hp))
  have hlt : T.entries[p]'(by rw [T.length_entries]; exact hp) - 1 < n := by omega
  simp [desBit, hp, hlt]

/-- rotateLeft is the rotation of the library for every count the schedule forms (40_permutation.md R101). -/
theorem rotateLeft_eq (v : KeyHalf) {k : Nat} (hk : k < 28) : rotateLeft v k = v.rotateLeft k := by
  rw [BitVec.rotateLeft_def, Nat.mod_eq_of_lt hk]
  rfl

@[simp] theorem opField_commandWord (op : Opcode) (data : Block) : opField (commandWord op data) = op := by
  ext i hi
  simp only [opField, commandWord, BitVec.getElem_extractLsb', BitVec.getLsbD_append]
  simp [show ¬ (64 + i < 64) by omega, BitVec.getLsbD_eq_getElem hi]

@[simp] theorem dataField_commandWord (op : Opcode) (data : Block) :
    dataField (commandWord op data) = data := by
  ext i hi
  simp only [dataField, commandWord, BitVec.getElem_extractLsb', BitVec.getLsbD_append]
  simp [hi]

/-- A command word is its two fields (30_encoding.md R71). -/
theorem commandWord_fields (cw : CommandWord) : commandWord (opField cw) (dataField cw) = cw := by
  apply BitVec.eq_of_getLsbD_eq
  intro i hi
  simp only [opField, dataField, commandWord, BitVec.getLsbD_append, BitVec.getLsbD_extractLsb']
  split
  · simp [*]
  · rw [show 64 + (i - 64) = i by omega]
    simp [show i - 64 < 4 by omega]

/-- The decoder reads the two fields (30_encoding.md R77). -/
@[simp] theorem decode_commandWord (op : Opcode) (data : Block) :
    decode (commandWord op data) = decodeFields op data := by
  simp [decode]

end Sys2Proof.Machine
end

