-- ==== Sys2Proof/Laws/PerInstr.lean ====
section
/-! SUPPORT. The family `EncodedWord`: the canonical word of a command carries its opcode and its operand in the fields
of 30_encoding.md R71, and those fields select no other command. -/

namespace Sys2Proof.Laws.EncodedWord

open Sys2Proof Sys2Proof.Machine

/-- The fields of the canonical word, and the command they select (R71, R73, R76). -/
def Statement (i : Instr) : Prop :=
  opField (encode i) = opcode i ∧ dataField (encode i) = canonicalData i ∧
  decodeFields (opcode i) (canonicalData i) = i

/-- The word's fields are those it was built from. -/
theorem fields (i : Instr) : opField (encode i) = opcode i ∧ dataField (encode i) = canonicalData i :=
  ⟨opField_commandWord _ _, dataField_commandWord _ _⟩

theorem nop : Statement .nop := ⟨(fields _).1, (fields _).2, rfl⟩

theorem ldkey (x : Block) : Statement (.ldkey x) :=
  ⟨(fields _).1, (fields _).2, by simp [decodeFields, opcode, canonicalData]⟩

theorem ldblk (x : Block) : Statement (.ldblk x) :=
  ⟨(fields _).1, (fields _).2, by simp [decodeFields, opcode, canonicalData]⟩

theorem clrerr : Statement .clrerr := ⟨(fields _).1, (fields _).2, rfl⟩

theorem enc : Statement .enc := ⟨(fields _).1, (fields _).2, rfl⟩

theorem dec : Statement .dec := ⟨(fields _).1, (fields _).2, rfl⟩

theorem reserved6 : Statement .reserved6 := ⟨(fields _).1, (fields _).2, rfl⟩

theorem reserved7 : Statement .reserved7 := ⟨(fields _).1, (fields _).2, rfl⟩

theorem reserved8 : Statement .reserved8 := ⟨(fields _).1, (fields _).2, rfl⟩

theorem reserved9 : Statement .reserved9 := ⟨(fields _).1, (fields _).2, rfl⟩

theorem reservedA : Statement .reservedA := ⟨(fields _).1, (fields _).2, rfl⟩

theorem reservedB : Statement .reservedB := ⟨(fields _).1, (fields _).2, rfl⟩

theorem reservedC : Statement .reservedC := ⟨(fields _).1, (fields _).2, rfl⟩

theorem reservedD : Statement .reservedD := ⟨(fields _).1, (fields _).2, rfl⟩

theorem reservedE : Statement .reservedE := ⟨(fields _).1, (fields _).2, rfl⟩

theorem reservedF : Statement .reservedF := ⟨(fields _).1, (fields _).2, rfl⟩

end Sys2Proof.Laws.EncodedWord
end

