-- ==== Sys2Proof/Tests/Slice0.lean ====
section
/-! SUPPORT. Tests: the ill-formed terms that the checks refuse, decoding of words written out from the opcode map, the
spec's known answers (95_test_vectors.md), and for each statement with hypotheses a witness that meets them. -/

namespace Sys2Proof.Tests

open Sys2Proof Sys2Proof.Machine

set_option Elab.async false

/-! ### Ill-formed terms -/

theorem test_wf_table_entry_zero : tableWf 4 2 [0, 3] = false := by decide
theorem test_wf_table_entry_too_large : tableWf 4 2 [1, 5] = false := by decide
theorem test_wf_table_too_short : tableWf 4 2 [1] = false := by decide
theorem test_wf_table_too_long : tableWf 4 2 [1, 2, 3] = false := by decide
theorem test_wf_shift_of_three : shiftsWf (3 :: List.replicate 15 1) = false := by decide
theorem test_wf_shift_of_zero : shiftsWf (List.replicate 15 1 ++ [0]) = false := by decide
theorem test_wf_shifts_too_few : shiftsWf (List.replicate 15 1) = false := by decide
theorem test_wf_no_hex_digit : hexDigitsWf [] = false := by decide
theorem test_wf_seventeen_hex_digits : hexDigitsWf (List.replicate 17 0) = false := by decide
theorem test_wf_nine_characters : textCharsWf (List.replicate 9 65) = false := by decide
theorem test_ill_formed_operands_are_refused :
    (Operand64.hex []).value = .error .badDigitCount ∧
    (Operand64.text (List.replicate 9 65)).value = .error .textTooLong := by decide

/-! ### Decoding of words written out from the opcode map (30_encoding.md R71, R73) -/

theorem test_decode_nop :
    decode
      (0b0000#4 ++
        0b0000000000000000000000000000000000000000000000000000000000000000#64) = .nop := by decide
theorem test_decode_ldkey :
    decode
      (0b0001#4 ++
        0b0001001100110100010101110111100110011011101111001101111111110001#64) = .ldkey 0x133457799BBCDFF1 := by decide
theorem test_decode_ldblk :
    decode
      (0b0010#4 ++
        0b0100000101000010010000110100010001000101010001100100011101001000#64) = .ldblk 0x4142434445464748 := by decide
theorem test_decode_clrerr :
    decode
      (0b0011#4 ++
        0b1111111111111111111111111111111111111111111111111111111111111111#64) = .clrerr := by decide
theorem test_decode_enc :
    decode
      (0b0100#4 ++
        0b0000000000000000000000000000000000000000000000000000000000000000#64) = .enc := by decide
theorem test_decode_dec :
    decode
      (0b0101#4 ++
        0b0000000000000000000000000000000000000000000000000000000000000001#64) = .dec := by decide
theorem test_decode_reserved6 :
    decode
      (0b0110#4 ++
        0b1111111111111111111111111111111111111111111111111111111111111111#64) = .reserved6 := by decide
theorem test_decode_reserved7 :
    decode
      (0b0111#4 ++
        0b0000000000000000000000000000000000000000000000000000000000000000#64) = .reserved7 := by decide
theorem test_decode_reserved8 :
    decode
      (0b1000#4 ++
        0b1111111111111111111111111111111111111111111111111111111111111111#64) = .reserved8 := by decide
theorem test_decode_reserved9 :
    decode
      (0b1001#4 ++
        0b0000000000000000000000000000000000000000000000000000000000000000#64) = .reserved9 := by decide
theorem test_decode_reservedA :
    decode
      (0b1010#4 ++
        0b1111111111111111111111111111111111111111111111111111111111111111#64) = .reservedA := by decide
theorem test_decode_reservedB :
    decode
      (0b1011#4 ++
        0b0000000000000000000000000000000000000000000000000000000000000000#64) = .reservedB := by decide
theorem test_decode_reservedC :
    decode
      (0b1100#4 ++
        0b1111111111111111111111111111111111111111111111111111111111111111#64) = .reservedC := by decide
theorem test_decode_reservedD :
    decode
      (0b1101#4 ++
        0b0000000000000000000000000000000000000000000000000000000000000000#64) = .reservedD := by decide
theorem test_decode_reservedE :
    decode
      (0b1110#4 ++
        0b1111111111111111111111111111111111111111111111111111111111111111#64) = .reservedE := by decide
theorem test_decode_reservedF :
    decode
      (0b1111#4 ++
        0b0000000000000000000000000000000000000000000000000000000000000000#64) = .reservedF := by decide
theorem test_decode_first_and_last_operand_bit :
    decode 0x18000000000000001#68 = .ldkey 0x8000000000000001 := by decide
theorem test_decode_rejects_a_longer_number :
    decodeWord (2 ^ 68) = .error .longerThanCommandWord ∧ decodeTableWord 72 (2 ^ 68) = none := by decide
theorem test_decode_table_word : decodeTableWord 72 0x5FFFFFFFFFFFFFFFF = some .dec := by decide

/-! ### States the tests start from -/

/-- The state of a step's answer, if it is a next state. -/
def nextState : Host.Outcome State Fault Refusal → Option State
  | .next s => some s
  | .fault _ => none
  | .refused _ => none

/-- The state after one command, accepted at an edge; a state that does not answer is kept. -/
def after (i : Instr) (s : State) : State := (nextState (exec i s)).getD s

/-- The state after `n` quiet edges. -/
def quietly (n : Nat) (s : State) : State := (nextState (edges (List.replicate n .quiet) s)).getD s

/-- The key and the block of 95_test_vectors.md section 1.3. -/
def stdKey : Block := 0x133457799BBCDFF1
def stdBlock : Block := 0x0123456789ABCDEF

def keyOnly : State := { State.reset with key := stdKey, sk := KS stdKey, keyv := true }
def blockOnly : State := { State.reset with blk := stdBlock, blkv := true }
def loaded : State := { keyOnly with blk := stdBlock, blkv := true }
def encStarted : State := after .enc loaded
def encDone : State := quietly 17 encStarted
def decDone : State := quietly 17 (after .dec { loaded with blk := 0x85E813540F0AB405 })
def noKeyError : State := { State.reset with err := true, errCode := .noKey }
def illegalError : State := { State.reset with err := true, errCode := .illegalCmd }

/-! ### Commands: the table of 95_test_vectors.md section 2.6, a column each -/

/-- STATUS after a command from each of the table's states. -/
def statusColumn (i : Instr) : List (BitVec 16) :=
  [State.reset, keyOnly, blockOnly, loaded, encDone, decDone, noKeyError, illegalError].map fun s =>
    statusWord (after i s)

theorem test_nop_status :
    statusColumn .nop =
      [0x0000, 0x0100, 0x0200, 0x0300, 0x0302, 0x030A, 0x0024, 0x0014] := by decide +kernel
theorem test_ldkey_status :
    statusColumn (.ldkey stdKey) =
      [0x0100, 0x0100, 0x0300, 0x0300, 0x0302, 0x030A, 0x0124, 0x0114] := by decide +kernel
theorem test_ldblk_status :
    statusColumn (.ldblk stdBlock) =
      [0x0200, 0x0300, 0x0200, 0x0300, 0x0302, 0x030A, 0x0224, 0x0214] := by decide +kernel
theorem test_clrerr_status :
    statusColumn .clrerr =
      [0x0000, 0x0100, 0x0200, 0x0300, 0x0302, 0x030A, 0x0000, 0x0000] := by decide +kernel
theorem test_enc_status :
    statusColumn .enc =
      [0x0024, 0x0134, 0x0224, 0x0701, 0x0701, 0x0701, 0x0024, 0x0014] := by decide +kernel
theorem test_dec_status :
    statusColumn .dec =
      [0x0024, 0x0134, 0x0224, 0x0709, 0x0709, 0x0709, 0x0024, 0x0014] := by decide +kernel
theorem test_reserved6_status :
    statusColumn .reserved6 =
      [0x0014, 0x0114, 0x0214, 0x0314, 0x0316, 0x031E, 0x0024, 0x0014] := by decide +kernel
theorem test_reservedF_status :
    statusColumn .reservedF =
      [0x0014, 0x0114, 0x0214, 0x0314, 0x0316, 0x031E, 0x0024, 0x0014] := by decide +kernel
theorem test_reserved_ops_between :
    [Instr.reserved7, .reserved8, .reserved9, .reservedA, .reservedB, .reservedC, .reservedD, .reservedE].all
      (fun i => statusWord (after i loaded) == 0x0314) = true := by decide +kernel
theorem test_ldkey_subkeys :
    (after (.ldkey 0x4D595345434B4559) State.reset).sk[0] = 0xB0924233A868 ∧
    (after (.ldkey 0x4D595345434B4559) encDone).sk[15] = 0xA09222ECC881 ∧
    (after (.ldkey 0x4D595345434B4559) encDone).trace[1].k = 0x1B02EFFC7072 := by decide +kernel
theorem test_enc_trace_entry_zero :
    (after .enc loaded).trace[0] = .ofInit 0xCC00CCFF 0xF0AAF0AA ∧
    (after .enc encDone).trace[17] = .empty ∧ (after .enc encDone).dout = 0x85E813540F0AB405 := by
  decide +kernel
theorem test_start_keeps_an_earlier_error :
    statusWord (after .enc { loaded with err := true, errCode := .illegalCmd }) = 0x0715 := by decide +kernel

/-! ### Functions: 95_test_vectors.md sections 2.1 to 2.5 -/

theorem test_permutations :
    permute ipTable 0x8000000000000000#64 = 0x0000000001000000 ∧
    permute fpTable 0x0123456789ABCDEF#64 = 0xFF330FAA00330FAA ∧
    permute eTable 0x12345678#32 = 0x0A41A82AC3F0 ∧ permute pTable 0x12345678#32 = 0x6E34140E ∧
    permute pc1Table 0x133457799BBCDFF1#64 = 0xF0CCAAF556678F ∧
    permute pc2Table 0xE19955FAACCF1E#56 = 0x1B02EFFC7072 := by decide +kernel
theorem test_rotations :
    rotateLeft 0xF0CCAAF 2 = 0xC332ABF ∧ rotateLeft 0x8000000 1 = 0x0000001 ∧
    rotateLeft 0xF0CCAAF 28 = 0xF0CCAAF := by decide +kernel
theorem test_sbox_rows_and_columns :
    (List.finRange 8).map (fun b => sboxLookup b 0b010101) = [12, 1, 5, 2, 15, 13, 5, 6] ∧
    (List.finRange 8).map (fun b => sboxLookup b 0b100000) = [4, 0, 13, 10, 4, 9, 1, 7] ∧
    (List.finRange 8).map (fun b => sboxLookup b 0b011011) = [5, 9, 11, 10, 9, 11, 15, 14] := by decide +kernel
theorem test_f_value : f 0x00008066 0xB0924233A868 = 0x550C66FD := by decide +kernel
theorem test_subkeys_of_the_scenario :
    (KS 0x4D595345434B4559)[8] = 0x1918881BCA07 ∧ (KS 0x4D595345434B4559)[14] = 0xE092A2447371 := by
  decide +kernel
theorem test_known_answers :
    runOut 0x8000000000000000 0x0101010101010101 .encrypt = 0x95F8A5E5DD31D900 ∧
    runOut 0xF04542C6B572EDB6 0x4D595345434B4559 .decrypt = 0x4142434445464748 := by decide +kernel
theorem test_run_trace_entry :
    runEntry 0x4142434445464748 0x4D595345434B4559 .encrypt 9 =
      .ofRound 9 0x4DEE1C73 0x425D5ADD 0x1918881BCA07 0x563AC2C3 := by decide +kernel

/-! ### Stages, reset, outputs -/

theorem test_status_of_the_stages :
    [1, 2, 15, 16, 17].map (fun n => statusWord (quietly n encStarted)) =
      [0x0B01, 0x0F01, 0x4301, 0x4701, 0x0302] := by decide +kernel
theorem test_round_sixteen :
    (quietly 16 encStarted).trace[16] = .ofRound 16 0x43423234 0x0A4CD995 0xCB3D8B0E17F5 0xC8C04F98 := by
  decide +kernel
theorem test_round_four_pair :
    ((quietly 4 encStarted).l, (quietly 4 encStarted).r) = (0xA25C0BF4, 0x77220045) ∧
    statusWord (quietly 4 encStarted) = 0x1701 := by decide +kernel
theorem test_fp_stage :
    (quietly 17 encStarted).dout = 0x85E813540F0AB405 ∧
    (quietly 17 encStarted).trace[17] = .ofFinal 0x85E813540F0AB405 ∧
    (quietly 17 encStarted).stage = 0 := by decide +kernel
theorem test_decrypt_uses_the_last_subkey_first :
    (quietly 1 (after .dec { loaded with blk := 0xF04542C6B572EDB6, sk := KS 0x4D595345434B4559 })).trace[1] =
      .ofRound 1 0xD9F140AC 0xBD60A571 0xA09222ECC881 0xD2D17F23 := by decide +kernel
theorem test_reset_in_a_run :
    nextState (edge { PortIn.reset with cmdValid := true, cmdOp := 1 } (quietly 4 encStarted)) =
      some State.reset := by decide +kernel
theorem test_trace_port :
    (outputs { PortIn.quiet with trIdx := 16 } encDone).trF = 0xC8C04F98 ∧
    (outputs { PortIn.quiet with trIdx := 17 } encDone).trOut = 0x85E813540F0AB405 ∧
    (outputs { PortIn.quiet with trIdx := 18 } encDone).trKind = 0 ∧
    (outputs { PortIn.quiet with trIdx := 31 } encDone).trOut = 0 := by decide +kernel
theorem test_ready_needs_no_reset_and_no_run :
    cmdReady .quiet State.reset = true ∧ cmdReady .reset State.reset = false ∧
    cmdReady .quiet encStarted = false := by decide +kernel

/-! ### Placing a command, and the host -/

theorem test_placed_word_runs_next :
    nextState (step (encStarted.withFetchWord 72 0x24142434445464748)) =
      some { encStarted with busy := false, stage := 0, blk := 0x4142434445464748 } := by decide +kernel
theorem test_offer_waits_for_the_run :
    (nextState (Host.Core.run core 17 { encStarted with host := [.offer 9 0] })).map
      (fun s => (s.host, statusWord s)) = some ([.offer 9 0], 0x0302) ∧
    (nextState (Host.Core.run core 18 { encStarted with host := [.offer 9 0] })).map
      (fun s => (s.host, statusWord s)) = some ([], 0x0316) := by decide +kernel
theorem test_expects_of_the_standard_vector :
    expectsHold { encDone with host := [.waitDone, .expect .dout 0x85E813540F0AB405,
      .expect (.trace 1 .k) 0x1B02EFFC7072, .expect (.trace 16 .f) 0xC8C04F98,
      .expect .status 0x0302, .expect (.statusField .done) 1] } = true ∧
    expectsHold { encDone with host := [.expect .dout 0] } = false := by decide +kernel
/-- Lines of programs P1, P3 and P5 of 95_test_vectors.md section 3. -/
theorem test_assemble :
    assemble ("RST ; one edge".toList ++ Char.ofNat 10 :: "LDKEY 0x133457799BBCDFF1".toList ++
      Char.ofNat 10 :: ".cmd 9, 0xFFFFFFFFFFFFFFFF".toList ++ Char.ofNat 10 :: "IDLE 5".toList ++
      Char.ofNat 10 :: "EXPECT trace[0].l = 0xCC00CCFF".toList) =
      .ok [.drive .reset, .offer 1 0x133457799BBCDFF1, .offer 9 0xFFFFFFFFFFFFFFFF, .idle 5,
        .expect (.trace 0 .l) 0xCC00CCFF] := by decide +kernel
/-- The base of IDLE's count, a double quote inside a string, and the reserved bit of STATUS: the model's choice (log entry 10). -/
theorem test_assemble_choices :
    assemble "IDLE 0x1F".toList = .ok [.idle 31] ∧ assemble "IDLE x".toList = .error .malformedOperand ∧
    parseOperand [quoteChar, 'A', quoteChar, 'B', quoteChar] = .error .malformedOperand ∧
    assemble "EXPECT status.reserved = 0".toList = .error .malformedOperand := by decide +kernel
theorem test_listing :
    listing (encode (.ldkey 0x133457799BBCDFF1)) = "1:133457799BBCDFF1".toList := by decide +kernel
theorem test_text_conversions :
    textToBits ("ABCDEFGH".toList.map Char.toNat) = 0x4142434445464748 ∧
    textToBits [65, 321] = 0x4141000000000000 ∧
    bitsToHex (bitSequence 0xF04542C6B572EDB6#64) = .ok "F04542C6B572EDB6".toList ∧
    bitsToHex [true, false] = .error .invalidLength := by decide +kernel

/-! ### Witnesses: states and operands that meet the statements' hypotheses -/

theorem isNext {o : Host.Outcome State Fault Refusal} (h : (nextState o).isSome = true) : ∃ t, o = .next t := by
  cases o with
  | next s => exact ⟨s, rfl⟩
  | fault r => simp [nextState] at h
  | refused r => simp [nextState] at h

theorem isNextWith {P : State → Bool} {o : Host.Outcome State Fault Refusal}
    (h : (nextState o).any P = true) : ∃ t, o = .next t ∧ P t = true := by
  cases o with
  | next s => exact ⟨s, rfl, by simpa [nextState] using h⟩
  | fault r => simp [nextState] at h
  | refused r => simp [nextState] at h


/-- A legal state from checks on concrete data. -/
theorem inv_of {s : State}
    (h1 : s.stage = 0 ↔ s.busy = false) (h2 : ¬ (s.busy = true ∧ s.done = true))
    (h3 : s.errCode = .none ↔ s.err = false) (h4 : s.keyv = true → s.sk = KS s.key)
    (h5 : s.busy = true → s.keyv = true ∧ s.blkv = true)
    (h6 : ∀ j : Fin 18, s.trace[j] = .empty ∨
      (s.trace[j].kind = stageKind j ∧ s.trace[j].idx = BitVec.ofNat 5 j.val ∧
        (s.trace[j].kind = .init → s.trace[j].k = 0 ∧ s.trace[j].f = 0 ∧ s.trace[j].out = 0) ∧
        (s.trace[j].kind = .round → s.trace[j].out = 0) ∧
        (s.trace[j].kind = .final →
          s.trace[j].l = 0 ∧ s.trace[j].r = 0 ∧ s.trace[j].k = 0 ∧ s.trace[j].f = 0)))
    (h7 : s.busy = true → ∀ j : Fin 18, s.trace[j] = .empty ↔ s.stage.val ≤ j.val)
    (h8 : s.done = true → (∀ j : Fin 18, s.trace[j] ≠ .empty) ∧ s.trace[17] = .ofFinal s.dout)
    (h9 : s.busy = false → s.done = false → (∀ j : Fin 18, s.trace[j] = .empty) ∧ s.dout = 0) : s.Inv :=
  ⟨h1, h2, h3, h4, h5, h6, h7, h8, h9⟩

theorem loaded_inv : loaded.Inv := by
  apply inv_of <;> decide +kernel
theorem blockOnly_inv : blockOnly.Inv := by
  apply inv_of <;> decide +kernel
theorem illegalError_inv : illegalError.Inv := by
  apply inv_of <;> decide +kernel
theorem stageOne_inv : encStarted.Inv := by
  apply inv_of <;> decide +kernel
theorem stageSixteen_inv : (quietly 15 encStarted).Inv := by
  apply inv_of <;> decide +kernel
theorem stageSeventeen_inv : (quietly 16 encStarted).Inv := by
  apply inv_of <;> decide +kernel
theorem encDone_inv : encDone.Inv := by
  apply inv_of <;> decide +kernel

/-- The busy states used below stand at stages 1, 16 and 17. -/
theorem test_stage_numbers :
    encStarted.stage.val = 1 ∧ encStarted.busy = true ∧
    (quietly 15 encStarted).stage.val = 16 ∧ (quietly 15 encStarted).busy = true ∧
    (quietly 16 encStarted).stage.val = 17 ∧ (quietly 16 encStarted).busy = true := by decide +kernel

theorem stageFive_holdsRun : (quietly 4 encStarted).HoldsRun :=
  ⟨by decide +kernel, by decide +kernel, fun h => absurd h (by decide +kernel)⟩
theorem stageFive_inv : (quietly 4 encStarted).Inv := by
  apply inv_of <;> decide +kernel
/-- EncodeThenDecodeReturnsCommand, IgnoredDataHasNoEffect, StartOpcodesCarryTheDirection. -/
theorem witness_encoding :
    (Instr.ldkey 0xFFFFFFFFFFFFFFFF).wf = true ∧ Instr.reservedF.wf = true ∧
    (0x0#4 ≠ 0x1#4 ∧ 0x0#4 ≠ 0x2#4) ∧ (0xF#4 ≠ 0x1#4 ∧ 0xF#4 ≠ 0x2#4) ∧
    (opcode .clrerr ≠ 0x1#4 ∧ opcode .clrerr ≠ 0x2#4) ∧
    (0x4#4 : Opcode).extractLsb' 1 3 = 0b010#3 ∧ (0x5#4 : Opcode).extractLsb' 1 3 = 0b010#3 ∧
    loaded.keyv = true ∧ loaded.blkv = true := by decide +kernel

/-- PlacedWordRunsAtTheNextStep: the table's 68 bits, whole bytes, and a number cut to 8 bits. -/
theorem witness_placed_word :
    decodeTableWord 68 (2 ^ 68 - 1) = some .reservedF ∧ decodeTableWord 72 0 = some .nop ∧
    decodeTableWord 8 0x1FF = some .nop := by decide

/-- StepRunsDecodedInstruction, CommandsAreNotTakenWhileBusy: an offer at an idle and at a busy machine, and driven
ports. -/
theorem witness_host_actions :
    (let s := { loaded with host := [.offer 4 0, .waitDone] }
     s.busy = false ∧ s.host = .offer 4 0 :: [.waitDone] ∧ decode (commandWord 4 0) = .enc) ∧
    (let s := { encStarted with host := [.offer 0 0] }
     s.busy = true ∧ s.host = .offer 0 0 :: []) ∧
    (let s := { encStarted with host := [.drive .reset] }
     s.host = .drive .reset :: []) := by decide +kernel

/-- EdgeCasesInOrder, IdleEdgeChangesNothing, CommandsAreNotTakenWhileBusy: the ports of each case. -/
theorem witness_ports :
    PortIn.reset.rst = true ∧ PortIn.quiet.rst = false ∧ PortIn.quiet.cmdValid = false ∧
    (PortIn.command 4 0).rst = false ∧ (PortIn.command 4 0).cmdValid = true ∧ loaded.busy = false := by
  decide +kernel

/-- BusyWithoutStageStops. -/
theorem witness_busy_without_stage :
    (let s := { State.reset with busy := true }
     s.busy = true ∧ s.stage = 0) ∧ PortIn.quiet.rst = false := by decide +kernel

/-- HeldResetIsOneReset, with the other inputs driven as well. -/
theorem witness_held_reset :
    ∀ q ∈ [PortIn.reset, { PortIn.command 9 0 with rst := true }], q.rst = true := by decide

/-- LdkeyLoadsKeyAndSubkeys, ClrerrClearsTheError, StatusWordLayout: legal states with a key, and without an error. -/
theorem witness_reload : (encDone.Inv ∧ encDone.keyv = true) ∧ (loaded.Inv ∧ loaded.err = false) :=
  ⟨⟨encDone_inv, by decide +kernel⟩, loaded_inv, by decide +kernel⟩

/-- ClrerrClearsTheError, OnlyStartsAndReservedOpsRaise, ErrorEffectKeepsTheFirstError: an
error is cleared, and one is raised. -/
theorem witness_error_changes :
    (∃ t, exec .clrerr illegalError = .next t ∧ illegalError.err = true ∧ t.err = false) ∧
    (∃ t, exec .reserved6 loaded = .next t ∧ loaded.err = false ∧ t.err = true) ∧
    (∃ t, exec .dec blockOnly = .next t ∧ blockOnly.err = false ∧ t.err = true) ∧
    (∃ t, exec .enc keyOnly = .next t ∧ keyOnly.err = false ∧ t.err = true) ∧
    6 ≤ (opcode .reserved6).toNat ∧ 6 ≤ (opcode .reservedF).toNat :=
  ⟨⟨_, rfl, rfl, rfl⟩, ⟨_, rfl, rfl, rfl⟩, ⟨_, rfl, rfl, rfl⟩, ⟨_, rfl, rfl, rfl⟩, by decide, by decide⟩

/-- EncStartsAnEncryptRun, DecStartsADecryptRun, StartIsCheckedKeyFirst: no key, a key alone, both, and the
example's states and edges. -/
theorem witness_starts :
    (blockOnly.keyv = false ∧ blockOnly.blkv = true) ∧ (keyOnly.keyv = true ∧ keyOnly.blkv = false) ∧
    (loaded.keyv = true ∧ loaded.blkv = true) ∧
    (encDone.busy = false ∧ encDone.err = false ∧ encDone.errCode = .none) ∧
    ((∀ p ∈ List.replicate 17 (PortIn.command 9 0), p.rst = false) ∧
      (List.replicate 17 (PortIn.command 9 0)).length = 17) := by decide +kernel

/-- OnlyStartsAndReservedOpsRaise, ErrorStaysUntilClearedAndBlocksNothing: edges that accept nothing, a stage, an idle
edge and a reset; and one with an error standing. -/
theorem witness_edges_without_a_command :
    (∃ t, edge .quiet encStarted = .next t) ∧ (∃ t, edge .quiet loaded = .next t) ∧
    (∃ t, edge .reset encStarted = .next t) ∧ (∃ t, edge (.command 4 0) illegalError = .next t) ∧
    (∀ i, arbitrate .quiet true ≠ .accept i) ∧ (∀ i, arbitrate .quiet false ≠ .accept i) ∧
    (∀ i, arbitrate .reset true ≠ .accept i) ∧ illegalError.err = true :=
  ⟨isNext (by decide +kernel), isNext (by decide +kernel), isNext (by decide +kernel),
    isNext (by decide +kernel), by simp [arbitrate, PortIn.quiet], by simp [arbitrate, PortIn.quiet],
    by simp [arbitrate, PortIn.reset], rfl⟩

/-- ErrorStaysUntilClearedAndBlocksNothing, CommandsWriteOnlyTheirElements. -/
theorem witness_commands :
    (∃ t, exec .nop illegalError = .next t) ∧ (∃ t, exec (.ldkey 1) loaded = .next t) ∧
    (∃ t, exec .clrerr encDone = .next t) ∧ (∃ t, exec .enc loaded = .next t) ∧
    (∃ t, exec .dec keyOnly = .next t ∧ keyOnly.blkv = false) ∧ (loaded.keyv = true ∧ loaded.blkv = true) ∧
    Instr.clrerr ∉ [Instr.enc, Instr.dec] ∧ (opcode (.ldblk 0)).toNat < 3 :=
  ⟨isNext (by decide +kernel), isNext (by decide +kernel), isNext (by decide +kernel),
    isNext (by decide +kernel), ⟨_, rfl, rfl⟩, by decide +kernel, by decide, by decide⟩

/-- FlagsChangeOnlyByTheirEvents: every flag changes at some edge without reset, and every event occurs. -/
theorem witness_flag_changes :
    (∃ t, edge (.command 5 0) encDone = .next t ∧ ((t.busy != encDone.busy) && (t.done != encDone.done)) = true) ∧
    (∃ t, edge .quiet (quietly 16 encStarted) = .next t) ∧
    (∃ t, edge (.command 6 0) loaded = .next t ∧ t.err ≠ loaded.err ∧ t.errCode ≠ loaded.errCode) ∧
    (∃ t, edge (.command 3 0) illegalError = .next t ∧ t.err ≠ illegalError.err) ∧
    (∃ t, edge (.command 1 7) blockOnly = .next t ∧ t.keyv ≠ blockOnly.keyv) ∧
    (∃ t, edge (.command 2 7) keyOnly = .next t ∧ t.blkv ≠ keyOnly.blkv) ∧
    arbitrate .quiet true = .stage ∧ arbitrate (.command 4 0) false = .accept .enc ∧
    arbitrate (.command 3 9) false = .accept .clrerr ∧ arbitrate (.command 1 7) false = .accept (.ldkey 7) ∧
    arbitrate (.command 2 7) false = .accept (.ldblk 7) :=
  ⟨isNextWith (P := fun t => (t.busy != encDone.busy) && (t.done != encDone.done)) (by decide +kernel),
    isNext (by decide +kernel),
    ⟨_, rfl, by decide, by decide⟩, ⟨_, rfl, by decide⟩, ⟨_, rfl, by decide⟩, ⟨_, rfl, by decide⟩,
    by decide +kernel⟩

/-- StageMovesOnlyInSequence, StepKeepsLegalStates, LegalStatesNeverStop: legal states for a reset, a start, the rounds
1 and 16, the final permutation and an idle edge. -/
theorem witness_legal_steps :
    (encStarted.Inv ∧ ∃ t, edge .reset encStarted = .next t) ∧
    (loaded.Inv ∧ ∃ t, edge (.command 4 0) loaded = .next t) ∧
    (encStarted.Inv ∧ ∃ t, step encStarted = .next t) ∧
    ((quietly 15 encStarted).Inv ∧ ∃ t, step (quietly 15 encStarted) = .next t) ∧
    ((quietly 16 encStarted).Inv ∧ ∃ t, step (quietly 16 encStarted) = .next t) ∧
    (encDone.Inv ∧ ∃ t, step encDone = .next t) :=
  ⟨⟨stageOne_inv, isNext (by decide +kernel)⟩, ⟨loaded_inv, isNext (by decide +kernel)⟩,
    ⟨stageOne_inv, isNext (by decide +kernel)⟩, ⟨stageSixteen_inv, isNext (by decide +kernel)⟩,
    ⟨stageSeventeen_inv, isNext (by decide +kernel)⟩, ⟨encDone_inv, isNext (by decide +kernel)⟩⟩

/-- ResultIsHeldUntilTheNextRunOrReset: a finished run, then an idle edge, and then a start. -/
theorem witness_held_result :
    encDone.Inv ∧ encDone.done = true ∧ ¬ (encDone.busy = true ∧ encDone.stage.val = 17) ∧
    (∃ t, edge .quiet encDone = .next t) ∧ (∃ t, edge (.command 4 0) encDone = .next t) :=
  ⟨encDone_inv, by decide +kernel, by decide +kernel, isNext (by decide +kernel), isNext (by decide +kernel)⟩

/-- RoundStageComputesOneRound, FinalStageWritesTheResult: rounds 1 and 16 and stage 17. -/
theorem witness_stages :
    (encStarted.busy = true ∧ encStarted.stage.val = (0 : Fin 16).val + 1) ∧
    ((quietly 15 encStarted).busy = true ∧ (quietly 15 encStarted).stage.val = (15 : Fin 16).val + 1) ∧
    ((quietly 16 encStarted).busy = true ∧ (quietly 16 encStarted).stage.val = 17) := by decide +kernel

/-- StagesComputeRun, RunTakesEighteenSteps: a start, and 0, 16 and 17 edges with commands offered meanwhile. -/
theorem witness_run :
    (Instr.dec, Dir.decrypt) ∈ [(Instr.enc, Dir.encrypt), (Instr.dec, Dir.decrypt)] ∧
    loaded.keyv = true ∧ loaded.blkv = true ∧ loaded.busy = false ∧ loaded.sk = KS loaded.key ∧
    (∃ t, exec .dec loaded = .next t) ∧ (∃ t, exec .nop loaded = .next t) ∧
    (∀ n ∈ [0, 16, 17], ∀ p ∈ List.replicate n (PortIn.command 1 5), p.rst = false) ∧
    (List.replicate 17 (PortIn.command 1 5)).length = 17 ∧ (PortIn.command 1 5).cmdValid = true :=
  ⟨by decide, rfl, rfl, rfl, rfl, isNext (by decide +kernel), isNext (by decide +kernel), by decide, rfl, rfl⟩

/-- WaitdoneReachesDone: the first and the last stage of a run, with WAITDONE at the head. -/
theorem witness_waitdone :
    (∃ s : State, s.Inv ∧ s.busy = true ∧ s.stage.val = 1 ∧ s.host = .waitDone :: [.offer 0 0]) ∧
    (∃ s : State, s.Inv ∧ s.busy = true ∧ s.stage.val = 17 ∧ s.host = .waitDone :: []) := by
  constructor
  · refine ⟨{ encStarted with host := [.waitDone, .offer 0 0] }, ?_, by decide +kernel, by decide +kernel, rfl⟩
    obtain ⟨h1, h2, h3, h4, h5, h6, h7, h8, h9⟩ := stageOne_inv
    exact ⟨h1, h2, h3, h4, h5, h6, h7, h8, h9⟩
  · refine ⟨{ quietly 16 encStarted with host := [.waitDone] }, ?_, by decide +kernel, by decide +kernel, rfl⟩
    obtain ⟨h1, h2, h3, h4, h5, h6, h7, h8, h9⟩ := stageSeventeen_inv
    exact ⟨h1, h2, h3, h4, h5, h6, h7, h8, h9⟩

/-- PermuteMovesDesBits, RotateLeftMovesDesBits, RoundKeySelection, DecryptionUndoesEncryption: the
first and the last index. -/
theorem witness_indices :
    (1 ≤ 1 ∧ 1 ≤ 48) ∧ (1 ≤ 48 ∧ 48 ≤ 48) ∧ (0 ≤ 28 ∧ 1 ≤ 28) ∧ (28 ≤ 28 ∧ 28 ≤ 28) ∧
    (1 ≤ 1 ∧ 1 ≤ 16) ∧ (1 ≤ 16 ∧ 16 ≤ 16) ∧ 0 ≤ 16 := by decide

/-- SboxRowAndColumn: group 010101 stands in row 1 and column 10. -/
theorem witness_sbox :
    (1 : Fin 4).val = 2 * (desBit 0b010101#6 1).toNat + (desBit 0b010101#6 6).toNat ∧
    (10 : Fin 16).val = 8 * (desBit 0b010101#6 2).toNat + 4 * (desBit 0b010101#6 3).toNat +
      2 * (desBit 0b010101#6 4).toNat + (desBit 0b010101#6 5).toNat := by decide

/-- RoundFunctionIsSboxesThenP: two different pairs with the same E(R) XOR K. -/
theorem witness_same_sum :
    permute eTable 0x00000000 ^^^ 0x000000000000 = permute eTable 0xFFFFFFFF ^^^ 0xFFFFFFFFFFFF := by
  decide +kernel

/-- KeyBitsAtMultiplesOfEightAreIgnored: R124's two keys. -/
theorem witness_ignored_key_bits :
    ∀ i : Nat, 1 ≤ i → i ≤ 64 → i % 8 ≠ 0 →
      desBit 0x133457799BBCDFF1#64 i = desBit 0x123457799ABCDEF0#64 i := by
  have h : ∀ j : Fin 65, 1 ≤ j.val → j.val % 8 ≠ 0 →
      desBit 0x133457799BBCDFF1#64 j.val = desBit 0x123457799ABCDEF0#64 j.val := by decide +kernel
  intro i h1 h2 h3
  exact h ⟨i, by omega⟩ h1 h3

/-- ConstantKeyHalvesMakeEncryptionItsOwnInverse; its rounds are those of `witness_indices`. -/
theorem witness_constant_halves :
    ((initialKeyHalves 0x1F1F1F1F0E0E0E0E).1 = 0 ∨
      (initialKeyHalves 0x1F1F1F1F0E0E0E0E).1 = BitVec.allOnes 28) ∧
    ((initialKeyHalves 0x1F1F1F1F0E0E0E0E).2 = 0 ∨
      (initialKeyHalves 0x1F1F1F1F0E0E0E0E).2 = BitVec.allOnes 28) := by decide +kernel

/-- RunsAreDeterministic: two states with different pasts and the same block and key. -/
theorem witness_two_starts :
    (∃ s s' : State, s.Inv ∧ s'.Inv ∧ s ≠ s' ∧ s.keyv = true ∧ s'.keyv = true ∧ s.blkv = true ∧
      s'.blkv = true ∧ s.blk = s'.blk ∧ s.key = s'.key ∧
      (∃ t, exec .enc s = .next t) ∧ (∃ t, exec .enc s' = .next t)) ∧
    Instr.enc ∈ [Instr.enc, Instr.dec] ∧
    (∀ p ∈ List.replicate 17 PortIn.quiet, p.rst = false) ∧ (List.replicate 17 PortIn.quiet).length = 17 :=
  ⟨⟨loaded, encDone, loaded_inv, encDone_inv, by decide +kernel, by decide +kernel, by decide +kernel,
    by decide +kernel, by decide +kernel, by decide +kernel, by decide +kernel, isNext (by decide +kernel),
    isNext (by decide +kernel)⟩, by decide, by decide, rfl⟩

/-- OutputPortsShowTheState: the trace indices 0, 17, 18 and 31. -/
theorem witness_trace_indices :
    (0#5).toNat = (0 : Fin 18).val ∧ (17#5).toNat = (17 : Fin 18).val ∧ 18 ≤ (18#5).toNat ∧
    18 ≤ (31#5).toNat := by decide

/-- StepKeepsWhatTheMachineShowsOfTheRun: a state in a run. -/
theorem witness_shown_run :
    (quietly 4 encStarted).Inv ∧ (quietly 4 encStarted).HoldsRun ∧ ∃ t, step (quietly 4 encStarted) = .next t :=
  ⟨stageFive_inv, stageFive_holdsRun, isNext (by decide +kernel)⟩

/-- UnloadedValuesAreNeverObserved: every element without a reset value differs. -/
theorem witness_same_but_unloaded :
    SameButUnloaded State.reset
      { State.reset with key := 1, sk := Vector.replicate 16 2, blk := 3, l := 4, r := 5 } :=
  ⟨by decide, by decide, by decide, by decide, by decide, rfl⟩

/-- PseudoLinesExpand: well-formed operands, an idle machine, and one in a run. -/
theorem witness_lines :
    (Operand64.text [77, 89]).wf = true ∧ (Operand64.hex (List.replicate 16 15)).wf = true ∧
    (Operand64.text []).wf = true ∧ encDone.busy = false ∧ encStarted.busy = true := by decide +kernel

/-- HostConversionsKeepBytesAndNibbles. -/
theorem witness_conversions :
    ([65, 66, 67, 68, 69, 70, 71, 255].length = 8 ∧ ∀ c ∈ [65, 66, 67, 68, 69, 70, 71, 255], c < 256) ∧
    (List.replicate 64 true).length % 4 = 0 ∧ (List.replicate 63 true).length % 4 ≠ 0 ∧
    (List.replicate 64 true).length % 8 = 0 ∧ (List.replicate 60 true).length % 8 ≠ 0 ∧ ([] : List Bool).length % 8 = 0 := by
  decide

end Sys2Proof.Tests
end

section
/-! SUPPORT. The sequencing of STAGE and the output ports (10_state.md R27, R37). -/

namespace Sys2Proof.Machine

/-! STAGE (R27) -/

theorem State.Inv.stage_val_of_idle {s : State} (hs : s.Inv) (hb : s.busy = false) : s.stage.val = 0 :=
  congrArg Fin.val (hs.stage_zero.2 hb)

theorem State.Inv.stage_val_of_busy {s : State} (hs : s.Inv) (hb : s.busy = true) :
    1 ≤ s.stage.val ∧ s.stage.val ≤ 17 := by
  have hne : s.stage.val ≠ 0 := fun h0 => by
    have hidle : s.busy = false := hs.stage_zero.1 (Fin.ext h0)
    simp [hb] at hidle
  omega

/-- A start that fails raises an error, which leaves STAGE alone (44_commands.md R199). -/
theorem startRun_begins_or_keeps_stage (d : Dir) (s : State) :
    (s.keyv = true ∧ s.blkv = true ∧ startRun d s = beginRun d s) ∨ (startRun d s).stage = s.stage := by
  rcases startRun_cases d s with ⟨_, h⟩ | ⟨_, _, h⟩ | hrun
  · exact .inr (by rw [h, raiseError_stage])
  · exact .inr (by rw [h, raiseError_stage])
  · exact .inl hrun

/-- The one way a command moves STAGE is a start, ENC or DEC, that begins a run. -/
theorem afterCommand_begins_or_keeps_stage (i : Instr) (s : State) :
    ((i = .enc ∨ i = .dec) ∧ s.keyv = true ∧ s.blkv = true ∧ ∃ d, afterCommand i s = beginRun d s) ∨
    (afterCommand i s).stage = s.stage := by
  cases i with
  | enc => exact (startRun_begins_or_keeps_stage .encrypt s).imp_left fun ⟨hk, hb, hr⟩ => ⟨.inl rfl, hk, hb, _, hr⟩
  | dec => exact (startRun_begins_or_keeps_stage .decrypt s).imp_left fun ⟨hk, hb, hr⟩ => ⟨.inr rfl, hk, hb, _, hr⟩
  | _ => exact .inr (by simp [afterCommand])

/-- Settles O29: the inversion lemma of one edge, case by case; an accepted command moves STAGE only where it begins
a run. -/
theorem stageMovesOnlyInSequence : Obligations.StageMovesOnlyInSequence := by
  intro p s t hs hedge
  refine ⟨hs.stage_val_of_idle, hs.stage_val_of_busy, ?_⟩
  rcases edge_next hedge with
    ⟨hr, rfl⟩ | ⟨hr, hb, i, hi, rfl⟩ | ⟨hr, hb, h17, rfl⟩ | ⟨hr, hb, _, hacc, rfl⟩ | ⟨hr, hb, _, rfl⟩
  · exact .inl ⟨hr, rfl⟩
  · have hnext : (roundStage i s).stage.val = s.stage.val + 1 := by simp [hi]
    exact .inr (.inr (.inl ⟨hr, hb, ⟨i, hi, rfl⟩, hnext⟩))
  · exact .inr (.inr (.inr (.inl ⟨hr, hb, h17, rfl, rfl⟩)))
  · have h0 : s.stage.val = 0 := hs.stage_val_of_idle hb
    rcases afterCommand_begins_or_keeps_stage (decode (commandWord p.cmdOp p.cmdData)) s with
      ⟨hi, hk, hblk, d, hrun⟩ | hkeep
    · have hstart : arbitrate p s.busy = .accept .enc ∨ arbitrate p s.busy = .accept .dec := by
        simpa [hacc] using hi
      rw [hrun]
      exact .inr (.inl ⟨hr, h0, rfl, hstart, hk, hblk, rfl, rfl⟩)
    · exact .inr (.inr (.inr (.inr ⟨hr, hb, h0, by rw [hkeep, h0]⟩)))
  · exact .inr (.inr (.inr (.inr ⟨hr, hb, hs.stage_val_of_idle hb, hs.stage_val_of_idle hb⟩)))

/-! The output ports (R37) -/

/-- The trace index is an input of the trace port alone: no edge reads it. -/
theorem edge_trIdx (p : PortIn) (s : State) (j : BitVec 5) : edge { p with trIdx := j } s = edge p s := rfl

theorem cmdReady_iff (p : PortIn) (s : State) : cmdReady p s = true ↔ s.busy = false ∧ p.rst = false := by
  simp [cmdReady]

/-- The indices 0..17 show their entries. -/
theorem traceAt_of_entry (s : State) {j : BitVec 5} {k : Fin 18} (h : j.toNat = k.val) :
    traceAt s j = s.trace[k] := by
  simp [traceAt, h]

/-- The indices 18..31 show NONE (20_memory.md R53). -/
theorem traceAt_of_ge (s : State) {j : BitVec 5} (h : 18 ≤ j.toNat) : traceAt s j = .empty :=
  dif_neg (Nat.not_lt.2 h)

/-- Settles O50: the ports are the model's functions of the state, and the trace port splits at index 18. -/
theorem outputPortsShowTheState : Obligations.OutputPortsShowTheState := by
  intro p s
  refine ⟨edge_trIdx p s, cmdReady_iff p s, rfl, rfl, fun j hj => ?_, fun hge => ?_⟩
  · simp [outputs, traceAt_of_entry s hj]
  · simp [outputs, traceAt_of_ge s hge, TraceEntry.empty, TraceKind.bits]

end Sys2Proof.Machine
end

section
/-! SUPPORT. The command word: the decoder by op alone, the data field that no command reads, and the op bit of a start
(30_encoding.md R74, R76, R77). -/

namespace Sys2Proof.Machine

/-! The decoder (R73, R77) -/

/-- The decoder keeps the op: the command it answers is the one whose row has that op. -/
@[simp] theorem opcode_decodeFields (op : Opcode) (data : Block) : opcode (decodeFields op data) = op := by
  obtain ⟨row⟩ := op
  fin_cases row <;> rfl

/-- A command without an operand is decoded from its op, whatever the data (R76). -/
theorem decodeFields_opcode {i : Instr} (hkey : opcode i ≠ 0x1#4) (hblk : opcode i ≠ 0x2#4) (data : Block) :
    decodeFields (opcode i) data = i := by
  cases i with
  | ldkey key => exact absurd rfl hkey
  | ldblk blk => exact absurd rfl hblk
  | _ => rfl

theorem decodeFields_ignores_data {op : Opcode} (hkey : op ≠ 0x1#4) (hblk : op ≠ 0x2#4) (data data' : Block) :
    decodeFields op data = decodeFields op data' := by
  simpa using decodeFields_opcode (i := decodeFields op data') (by simpa) (by simpa) data

theorem canonicalData_eq_zero {i : Instr} (hkey : opcode i ≠ 0x1#4) (hblk : opcode i ≠ 0x2#4) :
    canonicalData i = 0 := by
  cases i with
  | ldkey key => exact absurd rfl hkey
  | ldblk blk => exact absurd rfl hblk
  | _ => rfl

/-! Acceptance, and what an edge reads of the offered word (44_commands.md R190) -/

theorem exists_arbitrate_accept_iff (p : PortIn) (busy : Bool) :
    (∃ i, arbitrate p busy = .accept i) ↔ p.rst = false ∧ busy = false ∧ p.cmdValid = true := by
  constructor
  · rintro ⟨i, h⟩
    obtain ⟨hr, hb, hv, _⟩ := arbitrate_accept h
    exact ⟨hr, hb, hv⟩
  · rintro ⟨hr, rfl, hv⟩
    exact ⟨_, arbitrate_of_command hr hv⟩

/-- An edge reads the command ports through the decode of their word alone. -/
theorem edge_congr_of_decode {p q : PortIn} (s : State) (hrst : p.rst = q.rst) (hvalid : p.cmdValid = q.cmdValid)
    (hdecode : decode (commandWord p.cmdOp p.cmdData) = decode (commandWord q.cmdOp q.cmdData)) :
    edge p s = edge q s := by
  simp only [edge, arbitrate, hrst, hvalid, hdecode]

/-! The starts (R74) -/

theorem op_eq_enc_or_dec {op : Opcode} (h : op.extractLsb' 1 3 = 0b010#3) : op = 0x4#4 ∨ op = 0x5#4 := by
  revert op; decide

/-- A start on a loaded key and block writes its op bit to DIR (44_commands.md R197, R198). -/
theorem afterCommand_start_dir (decrypting : Bool) {s : State} (hkey : s.keyv = true) (hblk : s.blkv = true) :
    (afterCommand (if decrypting then .dec else .enc) s).dir.bit = decrypting := by
  cases decrypting <;> simp [afterCommand, startRun_of_loaded _ s hkey hblk, Dir.bit]

/-- Settles O2: a word is its two fields, the decoder computes on each op, and acceptance is read off the arbitration. -/
theorem everyCommandWordDecodesByOpAlone : Obligations.EveryCommandWordDecodesByOpAlone := by
  refine ⟨fun cw => ⟨opField cw, dataField cw, (commandWord_fields cw).symm⟩, fun data => ?_,
    exists_arbitrate_accept_iff⟩
  simp only [decode_commandWord]
  and_intros <;> rfl

/-- Settles O3: the decode is the same for all data, and an edge sees the data through the decode alone. -/
theorem ignoredDataHasNoEffect : Obligations.IgnoredDataHasNoEffect := by
  refine ⟨fun op data data' hkey hblk => ?_, fun i hkey hblk => ?_, rfl⟩
  · have hdecode : decode (commandWord op data) = decode (commandWord op data') := by
      simpa using decodeFields_ignores_data hkey hblk data data'
    exact ⟨hdecode, fun p s => edge_congr_of_decode s rfl rfl hdecode⟩
  · rw [(Laws.EncodedWord.fields i).2, canonicalData_eq_zero hkey hblk]

/-- Settles O4: op[3:1] = 0b010 leaves two ops, told apart by op[0], and a loaded start writes that bit to DIR. -/
theorem startOpcodesCarryTheDirection : Obligations.StartOpcodesCarryTheDirection := by
  refine ⟨⟨(Laws.EncodedWord.fields .enc).1, (Laws.EncodedWord.fields .dec).1⟩, fun op data hop => ?_⟩
  have hdecode : decode (commandWord op data) = (if op[0] then .dec else .enc) := by
    rw [decode_commandWord]
    rcases op_eq_enc_or_dec hop with rfl | rfl <;> rfl
  refine ⟨hdecode, fun s hkey hblk => ⟨_, exec_eq _ s, ?_⟩⟩
  rw [hdecode, afterCommand_start_dir op[0] hkey hblk]

end Sys2Proof.Machine
end

section
/-! SUPPORT. The host's conversions (30_encoding.md R84 to R86). bitsToHex and bitsToAscii both cut a bit list into
groups of one width: what the groups are is said once, for every width, and so is that the groups of a value's bits are
its slices. -/

namespace Sys2Proof.Machine

/-! The bits of a value as a number -/

@[simp] theorem length_bitSequence {n : Nat} (v : BitVec n) : (bitSequence v).length = n := by
  simp [bitSequence]

theorem getD_bitSequence {n : Nat} (v : BitVec n) (p : Nat) : (bitSequence v).getD p false = v.getMsbD p := by
  by_cases hp : p < n
  · simp [bitSequence, desBit, hp]
  · simp [bitSequence, hp, BitVec.getMsbD_of_ge v p (by omega)]

theorem bitSequence_concat {n : Nat} (v : BitVec n) (b : Bool) :
    bitSequence (v.concat b) = bitSequence v ++ [b] := by
  apply List.ext_getElem (by simp)
  intro p hp hp'
  have hp : p < n + 1 := by simpa using hp
  by_cases h : p < n
  · simp [bitSequence, desBit, h, BitVec.getMsbD_concat]
  · have hlast : p = n := by omega
    simp [bitSequence, desBit, hlast, BitVec.getMsbD_concat]

theorem groupValue_concat (bits : List Bool) (b : Bool) :
    groupValue (bits ++ [b]) = 2 * groupValue bits + b.toNat := by
  simp [groupValue]

theorem groupValue_bitSequence {n : Nat} (v : BitVec n) : groupValue (bitSequence v) = v.toNat := by
  induction n with
  | zero => simp [bitSequence, groupValue, BitVec.eq_nil v]
  | succ n ih =>
    obtain ⟨u, b, rfl⟩ : ∃ (u : BitVec n) (b : Bool), v = u.concat b :=
      ⟨_, _, BitVec.concat_extractLsb'_getLsb.symm⟩
    rw [bitSequence_concat, groupValue_concat, ih u, BitVec.toNat_concat, Nat.mul_comm]

/-! The groups of a bit list -/

/-- The value of group k of `w` bits; bits past the end are 0. -/
def bitGroup (w : Nat) (bits : List Bool) (k : Nat) : Nat :=
  groupValue ((List.range w).map fun j => bits.getD (w * k + j) false)

/-- The values of all whole groups of `w` bits, in order. -/
def bitGroups (w : Nat) (bits : List Bool) : List Nat :=
  (List.range (bits.length / w)).map (bitGroup w bits)

@[simp] theorem length_bitGroups (w : Nat) (bits : List Bool) : (bitGroups w bits).length = bits.length / w := by
  simp [bitGroups]

theorem getElem?_bitGroups {w : Nat} {bits : List Bool} {k : Nat} (hk : k < bits.length / w) :
    (bitGroups w bits)[k]? = some (bitGroup w bits k) := by
  simp [bitGroups, hk]

theorem bitGroup_four (bits : List Bool) (k : Nat) :
    bitGroup 4 bits k =
      8 * (bits.getD (4 * k) false).toNat + 4 * (bits.getD (4 * k + 1) false).toNat +
      2 * (bits.getD (4 * k + 2) false).toNat + (bits.getD (4 * k + 3) false).toNat := by
  simp [bitGroup, groupValue, List.range_succ]
  omega

theorem bitGroup_eight (bits : List Bool) (k : Nat) :
    bitGroup 8 bits k =
      128 * (bits.getD (8 * k) false).toNat + 64 * (bits.getD (8 * k + 1) false).toNat +
      32 * (bits.getD (8 * k + 2) false).toNat + 16 * (bits.getD (8 * k + 3) false).toNat +
      8 * (bits.getD (8 * k + 4) false).toNat + 4 * (bits.getD (8 * k + 5) false).toNat +
      2 * (bits.getD (8 * k + 6) false).toNat + (bits.getD (8 * k + 7) false).toNat := by
  simp [bitGroup, groupValue, List.range_succ]
  omega

theorem bitGroup_four_lt (bits : List Bool) (k : Nat) : bitGroup 4 bits k < 16 := by
  have hbit (p : Nat) : (bits.getD p false).toNat ≤ 1 := Bool.toNat_le _
  rw [bitGroup_four]
  have := hbit (4 * k); have := hbit (4 * k + 1); have := hbit (4 * k + 2); have := hbit (4 * k + 3)
  omega

/-- A group of the bits of a value is a slice of it. -/
theorem bitGroup_bitSequence {n w k : Nat} (v : BitVec n) (h : w * k + w ≤ n) :
    bitGroup w (bitSequence v) k = (v.extractLsb' (n - w * k - w) w).toNat := by
  rw [← groupValue_bitSequence, bitGroup]
  congr 1
  apply List.map_congr_left
  intro j hj
  have hjw : j < w := List.mem_range.1 hj
  have hpos : n - (n - w * k - w + w - j) = w * k + j := by omega
  have hin : n - w * k - w + w - j ≤ n := by omega
  rw [getD_bitSequence]
  simp [desBit, BitVec.getMsbD_extractLsb', hjw, hin, hpos]

/-- The first group leads the rest. -/
theorem bitGroups_append {w : Nat} (hw : 0 < w) {group : List Bool} (rest : List Bool) (hlen : group.length = w) :
    bitGroups w (group ++ rest) = groupValue group :: bitGroups w rest := by
  have hfirst : bitGroup w (group ++ rest) 0 = groupValue group := by
    rw [bitGroup]
    congr 1
    apply List.ext_getElem (by simp [hlen])
    intro j _ hj
    simp [List.getElem?_append_left hj, hj]
  have hnext (k : Nat) : bitGroup w (group ++ rest) (k + 1) = bitGroup w rest k := by
    rw [bitGroup, bitGroup]
    congr 1
    apply List.map_congr_left
    intro j _
    rw [List.getD_append_right _ _ _ _ (by rw [hlen, Nat.mul_add]; omega)]
    congr 1; rw [hlen, Nat.mul_add]; omega
  simp [bitGroups, hlen, Nat.add_div_left _ hw, List.range_succ_eq_map, hfirst, hnext, Function.comp_def]

/-- Induction on the groups of a bit list: it is shorter than a group, or it starts with one. -/
theorem bitGroups_induction {w : Nat} (hw : 0 < w) {P : List Bool → Prop}
    (short : ∀ bits, bits.length < w → P bits)
    (group : ∀ group rest, group.length = w → P rest → P (group ++ rest)) (bits : List Bool) : P bits := by
  induction hn : bits.length using Nat.strong_induction_on generalizing bits with
  | _ n ih =>
    by_cases hlt : bits.length < w
    · exact short bits hlt
    · rw [← List.take_append_drop w bits]
      exact group _ _ (by simp; omega) (ih (bits.drop w).length (by simp; omega) _ rfl)

/-! bitsToHex and bitsToAscii (R85, R86) -/

theorem bitsToHex_append {nibble : List Bool} (rest : List Bool) (h : nibble.length = 4) :
    bitsToHex (nibble ++ rest) = (bitsToHex rest).map (hexDigit (groupValue nibble) :: ·) := by
  match nibble, h with
  | [a, b, c, d], _ =>
    simp only [List.cons_append, List.nil_append, bitsToHex]
    cases bitsToHex rest <;> rfl

theorem bitsToAscii_append {byte : List Bool} (rest : List Bool) (h : byte.length = 8) :
    bitsToAscii (byte ++ rest) = (bitsToAscii rest).map (groupValue byte :: ·) := by
  match byte, h with
  | [a, b, c, d, e, f, g, h], _ =>
    simp only [List.cons_append, List.nil_append, bitsToAscii]
    cases bitsToAscii rest <;> rfl

/-- bitsToHex and bitsToAscii follow one scheme, here for any converter `conv` that shows each group of `w` bits by
`shown`: it succeeds exactly on whole groups. -/
theorem convert_eq_of_scheme {w : Nat} (hw : 0 < w) {α : Type} {shown : Nat → α}
    {conv : List Bool → Except ConvertError (List α)} (hnil : conv [] = .ok [])
    (hshort : ∀ bits, bits ≠ [] → bits.length < w → conv bits = .error .invalidLength)
    (hgroup : ∀ group rest, group.length = w →
      conv (group ++ rest) = (conv rest).map (shown (groupValue group) :: ·)) (bits : List Bool) :
    conv bits = if bits.length % w = 0 then .ok ((bitGroups w bits).map shown) else .error .invalidLength := by
  induction bits using bitGroups_induction hw with
  | short bits hlt =>
    rcases eq_or_ne bits [] with rfl | hne
    · simp [hnil, bitGroups]
    · have hmod : bits.length % w ≠ 0 := by rw [Nat.mod_eq_of_lt hlt]; simpa
      rw [hshort bits hne hlt, if_neg hmod]
  | group group rest hlen ih =>
    rw [hgroup group rest hlen, ih, bitGroups_append hw rest hlen, List.length_append, hlen, Nat.add_mod_left]
    split <;> rfl

theorem bitsToHex_eq (bits : List Bool) :
    bitsToHex bits = if bits.length % 4 = 0 then .ok ((bitGroups 4 bits).map hexDigit) else .error .invalidLength := by
  refine convert_eq_of_scheme (w := 4) (shown := hexDigit) (conv := bitsToHex) (by decide) rfl (fun bits hne hlt => ?_)
    (fun _ rest => bitsToHex_append rest) bits
  unfold bitsToHex
  split
  · exact absurd rfl hne
  · simp only [List.length_cons] at hlt; omega
  · rfl

theorem bitsToAscii_eq (bits : List Bool) :
    bitsToAscii bits = if bits.length % 8 = 0 then .ok (bitGroups 8 bits) else .error .invalidLength := by
  rw [← List.map_id (bitGroups 8 bits)]
  refine convert_eq_of_scheme (w := 8) (shown := id) (conv := bitsToAscii) (by decide) rfl (fun bits hne hlt => ?_)
    (fun _ rest => bitsToAscii_append rest) bits
  unfold bitsToAscii
  split
  · exact absurd rfl hne
  · simp only [List.length_cons] at hlt; omega
  · rfl

theorem bitsToHex_of_nibbles {bits : List Bool} (h : bits.length % 4 = 0) :
    bitsToHex bits = .ok ((bitGroups 4 bits).map hexDigit) := by
  rw [bitsToHex_eq, if_pos h]

theorem bitsToAscii_of_bytes {bits : List Bool} (h : bits.length % 8 = 0) :
    bitsToAscii bits = .ok (bitGroups 8 bits) := by
  rw [bitsToAscii_eq, if_pos h]

/-- The uppercase digits in order (00_scope.md R10). -/
theorem hexDigit_eq_digit {n : Nat} (h : n < 16) : some (hexDigit n) = "0123456789ABCDEF".toList[n]? := by
  revert n; decide

theorem getElem?_map_hexDigit_bitGroups {bits : List Bool} {k : Nat} (hk : k < bits.length / 4) :
    ((bitGroups 4 bits).map hexDigit)[k]? = "0123456789ABCDEF".toList[bitGroup 4 bits k]? := by
  rw [List.getElem?_map, getElem?_bitGroups hk, Option.map_some, hexDigit_eq_digit (bitGroup_four_lt bits k)]

/-! The bytes of a block, and textToBits (R84, 20_memory.md R56) -/

theorem bitGroups_eight_block (v : Block) :
    bitGroups 8 (bitSequence v) = (List.finRange 8).map fun k => (blockByte v k).toNat := by
  apply List.ext_getElem (by simp)
  intro k _ hk
  have hk8 : k < 8 := by simpa using hk
  simp [bitGroups, blockByte, bitGroup_bitSequence v (show 8 * k + 8 ≤ 64 by omega),
    show 64 - 8 * k - 8 = 56 - 8 * k by omega]

theorem blockByte_textToBits (codes : List Nat) (k : Fin 8) :
    blockByte (textToBits codes) k = charByte codes k := by
  rw [blockByte, textToBits]
  fin_cases k <;>
    simp (disch := decide) only [BitVec.extractLsb'_append_eq_of_le, BitVec.extractLsb'_append_eq_of_add_le] <;>
    exact BitVec.extractLsb'_eq_self

theorem toNat_blockByte_textToBits (codes : List Nat) (k : Fin 8) :
    (blockByte (textToBits codes) k).toNat = codes.getD k 0 % 256 := by
  rw [blockByte_textToBits, charByte, BitVec.toNat_ofNat]

/-- Eight byte codes are the bytes of their block. -/
theorem map_blockByte_textToBits {codes : List Nat} (hlen : codes.length = 8) (hbyte : ∀ c ∈ codes, c < 256) :
    ((List.finRange 8).map fun k => (blockByte (textToBits codes) k).toNat) = codes := by
  apply List.ext_getElem (by simp [hlen])
  intro k _ hk
  have hlt : codes[k] < 256 := hbyte _ (List.getElem_mem hk)
  simp [toNat_blockByte_textToBits, hk, Nat.mod_eq_of_lt hlt]

/-- Settles O58: both converters give the groups of the bit list, one by one, and a block's groups are its slices. -/
theorem hostConversionsKeepBytesAndNibbles : Obligations.HostConversionsKeepBytesAndNibbles := by
  refine ⟨toNat_blockByte_textToBits, fun bits h => ?_, fun bits h => ?_, fun v => ?_, fun bits h => ?_,
    fun bits h => ?_, fun v => ?_, fun codes hlen hbyte => ?_⟩
  · refine ⟨_, bitsToHex_of_nibbles h, by simp, fun k hk => ?_⟩
    rw [getElem?_map_hexDigit_bitGroups (by simpa using hk), bitGroup_four]
  · rw [bitsToHex_eq, if_neg h]
  · refine ⟨_, bitsToHex_of_nibbles (by simp), by simp, fun k => ?_⟩
    rw [getElem?_map_hexDigit_bitGroups (by simp), bitGroup_bitSequence v (by omega),
      show 64 - 4 * k.val - 4 = 60 - 4 * k.val by omega]
  · refine ⟨_, bitsToAscii_of_bytes h, by simp, fun k hk => ?_⟩
    rw [getElem?_bitGroups (by simpa using hk), bitGroup_eight]
  · rw [bitsToAscii_eq, if_neg h]
  · rw [bitsToAscii_of_bytes (by simp), bitGroups_eight_block]
  · rw [bitsToAscii_of_bytes (by simp), bitGroups_eight_block, map_blockByte_textToBits hlen hbyte]

end Sys2Proof.Machine
end

section
/-! SUPPORT. The datapath primitives in the spec's own numbering, DES bits 1..n (40_permutation.md R100, R101). -/

namespace Sys2Proof.Machine

theorem PermTable.getD_entries_bounds {n m p : Nat} (T : PermTable n m) (hp : p < m) :
    1 ≤ T.entries.getD p 0 ∧ T.entries.getD p 0 ≤ n := by
  have hlen : p < T.entries.length := by rwa [T.length_entries]
  rw [List.getD_eq_getElem _ _ hlen]
  exact T.entry_bounds (List.getElem_mem hlen)

theorem desBit_permute {n m i : Nat} (T : PermTable n m) (v : BitVec n) (hi : i - 1 < m) :
    desBit (permute T v) i = desBit v (T.entries.getD (i - 1) 0) := by
  have hlen : i - 1 < T.entries.length := by rwa [T.length_entries]
  rw [desBit, getMsbD_permute_lt T v hi, List.getD_eq_getElem _ _ hlen]

/-- At count 0 the wrapped part is shifted out whole. -/
@[simp] theorem rotateLeft_zero (v : KeyHalf) : rotateLeft v 0 = v := by
  rw [rotateLeft, BitVec.ushiftRight_eq_zero (Nat.le_refl 28)]
  simp

/-- At count 28 the wrapped part is the whole value. -/
@[simp] theorem rotateLeft_twentyEight (v : KeyHalf) : rotateLeft v 28 = v := by
  rw [rotateLeft, BitVec.shiftLeft_eq_zero (Nat.le_refl 28)]
  simp

/-- Counts below 28 are the library's rotation; count 28 is a full turn, which the remainder cancels. -/
theorem getMsbD_rotateLeft {k p : Nat} (v : KeyHalf) (hk : k ≤ 28) (hp : p < 28) :
    (rotateLeft v k).getMsbD p = v.getMsbD ((p + k) % 28) := by
  rcases Nat.lt_or_eq_of_le hk with hlt | rfl
  · rw [rotateLeft_eq v hlt, BitVec.getMsbD_rotateLeft_of_lt hlt, Nat.add_comm k p]
    simp [hp]
  · rw [rotateLeft_twentyEight, Nat.add_mod_right, Nat.mod_eq_of_lt hp]

/-- Settles O36: entry i - 1 of the table, counted from 0, is T[i], and its bounds are the table's well-formedness. -/
theorem permuteMovesDesBits : Obligations.PermuteMovesDesBits := by
  refine ⟨fun n m T v i h1 hm => ?_, by decide⟩
  have hi : i - 1 < m := by omega
  exact ⟨desBit_permute T v hi, T.getD_entries_bounds hi⟩

/-- Settles O37: in sequence positions, which are DES bits less 1, every rotation adds its count modulo 28. -/
theorem rotateLeftMovesDesBits : Obligations.RotateLeftMovesDesBits := by
  refine ⟨fun v k i hk h1 hi => ?_, fun v => ⟨rotateLeft_zero v, rotateLeft_twentyEight v⟩, by decide⟩
  rw [desBit, desBit, Nat.add_sub_cancel]
  exact getMsbD_rotateLeft v hk (by omega)

end Sys2Proof.Machine
end

section
/-! SUPPORT. The key schedule in closed form: the halves of a round are C_0 and D_0 rotated by one cumulative count, so
the subkeys read the key through C_0 and D_0 alone (41_key_schedule.md R121, R122, R124). -/

namespace Sys2Proof.Machine

/-! The rotations add up (40_permutation.md R101, R110) -/

theorem rotateLeft_rotateLeft (v : KeyHalf) {j k : Nat} (h : j + k ≤ 28) :
    rotateLeft (rotateLeft v j) k = rotateLeft v (j + k) := by
  apply BitVec.eq_of_getMsbD_eq
  intro p hp
  rw [getMsbD_rotateLeft _ (by omega) hp, getMsbD_rotateLeft v (by omega) (Nat.mod_lt _ (by decide)),
    getMsbD_rotateLeft v h hp]
  congr 1
  omega

@[simp] theorem rotateLeft_of_zero (k : Nat) : rotateLeft 0 k = 0 := by simp [rotateLeft]

theorem rotateLeft_allOnes {k : Nat} (hk : k ≤ 28) : rotateLeft (BitVec.allOnes 28) k = BitVec.allOnes 28 := by
  apply BitVec.eq_of_getMsbD_eq
  intro p hp
  rw [getMsbD_rotateLeft _ hk hp, BitVec.getMsbD_allOnes, BitVec.getMsbD_allOnes]
  simp [hp, Nat.mod_lt]

/-- The sum of the counts of rounds 1 to n. -/
def cumulativeShift (n : Nat) : Nat := (shiftTable.toList.take n).sum

theorem cumulativeShift_succ (i : Fin 16) : cumulativeShift (i.val + 1) = cumulativeShift i.val + shiftCount i := by
  revert i; decide

/-- The counts of all 16 rounds are one full turn (R110). -/
theorem cumulativeShift_sixteen : cumulativeShift 16 = 28 := rfl

theorem cumulativeShift_le {n : Nat} (h : n ≤ 16) : cumulativeShift n ≤ 28 := by
  revert n; decide

/-! The halves of every round (R121, R122) -/

theorem keyHalves_eq (key : Block) (n : Nat) (h : n ≤ 16) :
    keyHalves key n h =
      (rotateLeft (initialKeyHalves key).1 (cumulativeShift n),
       rotateLeft (initialKeyHalves key).2 (cumulativeShift n)) := by
  induction n with
  | zero => simp [keyHalves, cumulativeShift]
  | succ n ih =>
    have hsum : cumulativeShift (n + 1) = cumulativeShift n + shiftCount ⟨n, h⟩ := cumulativeShift_succ ⟨n, h⟩
    have hle : cumulativeShift n + shiftCount ⟨n, h⟩ ≤ 28 := hsum ▸ cumulativeShift_le h
    rw [keyHalves, ih, rotateKeyHalves, rotateLeft_rotateLeft _ hle, rotateLeft_rotateLeft _ hle, hsum]

theorem keyHalves_congr {key key' : Block} (h0 : initialKeyHalves key = initialKeyHalves key')
    (n : Nat) (h : n ≤ 16) : keyHalves key n h = keyHalves key' n h := by
  rw [keyHalves_eq, keyHalves_eq, h0]

/-- Round 16 completes the turn (R126). -/
theorem keyHalves_sixteen (key : Block) : keyHalves key 16 (Nat.le_refl 16) = initialKeyHalves key := by
  simp [keyHalves_eq, cumulativeShift_sixteen]

/-! The subkeys (R122, R124) -/

theorem getElem_KS (key : Block) (i : Fin 16) : (KS key)[i] = subkey key i := by
  simp [KS]

theorem KS_congr {key key' : Block} (h0 : initialKeyHalves key = initialKeyHalves key') : KS key = KS key' := by
  have hsubkey : subkey key = subkey key' := funext fun i => by simp [subkey, keyHalves_congr h0]
  rw [KS, hsubkey, KS]

/-- PC-1 selects no bit whose number is a multiple of 8 (40_permutation.md R108). -/
theorem pc1Table_selects_no_multiple_of_eight : ∀ t ∈ pc1Table.entries, t % 8 ≠ 0 := by decide

/-- So C_0 and D_0 do not depend on those bits. -/
theorem initialKeyHalves_congr {key key' : Block}
    (h : ∀ i : Nat, 1 ≤ i → i ≤ 64 → i % 8 ≠ 0 → desBit key i = desBit key' i) :
    initialKeyHalves key = initialKeyHalves key' := by
  have hpc1 : permute pc1Table key = permute pc1Table key' := by
    refine permute_congr _ fun t ht => ?_
    obtain ⟨h1, h64⟩ := pc1Table.entry_bounds ht
    exact h t h1 h64 (pc1Table_selects_no_multiple_of_eight t ht)
  rw [initialKeyHalves, hpc1, initialKeyHalves]

/-- Settles O42: the first two clauses are one round of the recurrence, and the cumulative counts are its closed
form. -/
theorem subkeysFollowTheCumulativeRotation : Obligations.SubkeysFollowTheCumulativeRotation := by
  refine ⟨fun key i => ⟨rfl, getElem_KS key i⟩, fun key i => ?_, by decide +kernel⟩
  have hcount : #v[1, 2, 4, 6, 8, 10, 12, 14, 15, 17, 19, 21, 23, 25, 27, 28][i] = cumulativeShift (i.val + 1) := by
    revert i; decide
  rw [keyHalves_eq, hcount]

end Sys2Proof.Machine
end

section
/-! SUPPORT. RUN as a function of its round keys, and its inverse: the decrypt run goes through the encrypt run's pairs
backwards, with their halves swapped (43_cipher_engine.md R160 to R164, R170). -/

namespace Sys2Proof.Machine

/-! The equations of a run (R161 to R163) -/

theorem runPair_zero (blk key : Block) (d : Dir) (h : 0 ≤ 16) :
    runPair blk key d 0 h = (leftHalf (permute ipTable blk), rightHalf (permute ipTable blk)) := rfl

theorem runPair_succ (blk key : Block) (d : Dir) (n : Nat) (h : n + 1 ≤ 16) :
    runPair blk key d (n + 1) h =
      ((runPair blk key d n (by omega)).2,
       (runPair blk key d n (by omega)).1 ^^^ f (runPair blk key d n (by omega)).2 (roundKey d (KS key) ⟨n, h⟩)) :=
  rfl

theorem runOut_eq (blk key : Block) (d : Dir) :
    runOut blk key d =
      permute fpTable ((runPair blk key d 16 (Nat.le_refl 16)).2 ++ (runPair blk key d 16 (Nat.le_refl 16)).1) := rfl

/-! A run reads the key through its round keys alone (R162) -/

theorem runPair_congr {key key' : Block} {d d' : Dir}
    (hk : ∀ i : Fin 16, roundKey d (KS key) i = roundKey d' (KS key') i) (blk : Block) (n : Nat) (h : n ≤ 16) :
    runPair blk key d n h = runPair blk key' d' n h := by
  induction n with
  | zero => rfl
  | succ n ih => rw [runPair_succ, runPair_succ, ih, hk]

theorem runOut_congr {key key' : Block} {d d' : Dir}
    (hk : ∀ i : Fin 16, roundKey d (KS key) i = roundKey d' (KS key') i) (blk : Block) :
    runOut blk key d = runOut blk key' d' := by
  rw [runOut_eq, runOut_eq, runPair_congr hk]

theorem runTrace_congr {key key' : Block} {d d' : Dir}
    (hk : ∀ i : Fin 16, roundKey d (KS key) i = roundKey d' (KS key') i) (blk : Block) :
    runTrace blk key d = runTrace blk key' d' := by
  have hround : runRoundEntry blk key d = runRoundEntry blk key' d' :=
    funext fun i => by simp only [runRoundEntry, runPair_congr hk, hk]
  have hentry : runEntry blk key d = runEntry blk key' d' :=
    funext fun j => by simp only [runEntry, runPair_congr hk, hround, runOut_congr hk]
  rw [runTrace, hentry, runTrace]

theorem RUN_congr {key key' : Block} {d d' : Dir}
    (hk : ∀ i : Fin 16, roundKey d (KS key) i = roundKey d' (KS key') i) (blk : Block) :
    RUN blk key d = RUN blk key' d' := by
  rw [RUN, runOut_congr hk, runTrace_congr hk, RUN]

/-! IP and FP are inverse (40_permutation.md R105) -/

/-- `T` undoes `U` when each DES bit of its output comes from a bit that `U` took from the same place. -/
theorem permute_permute_of_inverse {n : Nat} {T U : PermTable n n}
    (h : ∀ p < n, U.entries.getD (T.entries.getD p 0 - 1) 0 = p + 1) (v : BitVec n) :
    permute T (permute U v) = v := by
  apply BitVec.eq_of_getMsbD_eq
  intro p hp
  have hbounds := T.getD_entries_bounds hp
  calc (permute T (permute U v)).getMsbD p
      = desBit (permute T (permute U v)) (p + 1) := rfl
    _ = desBit (permute U v) (T.entries.getD p 0) := desBit_permute T _ hp
    _ = desBit v (p + 1) := by rw [desBit_permute U v (by omega), h p hp]
    _ = v.getMsbD p := rfl

@[simp] theorem permute_fpTable_ipTable (v : Block) : permute fpTable (permute ipTable v) = v :=
  permute_permute_of_inverse (by decide) v

@[simp] theorem permute_ipTable_fpTable (v : Block) : permute ipTable (permute fpTable v) = v :=
  permute_permute_of_inverse (by decide) v

/-! The halves of a block (43_cipher_engine.md R161, R163) -/

@[simp] theorem leftHalf_append (l r : Half) : leftHalf (l ++ r) = l :=
  BitVec.extractLsb'_append_eq_left

@[simp] theorem rightHalf_append (l r : Half) : rightHalf (l ++ r) = r :=
  BitVec.extractLsb'_append_eq_right

@[simp] theorem leftHalf_append_rightHalf (v : Block) : leftHalf v ++ rightHalf v = v := by
  rw [leftHalf, rightHalf, BitVec.extractLsb'_append_extractLsb'_eq_extractLsb' (by decide)]
  exact BitVec.extractLsb'_eq_self

/-! The inverse run (R125, R170) -/

/-- Decryption takes the subkeys in reverse order. -/
theorem roundKey_decrypt (sk : Vector Subkey 16) {n m : Nat} (h : n + 1 + m = 16) :
    roundKey .decrypt sk ⟨n, by omega⟩ = roundKey .encrypt sk ⟨m, by omega⟩ := by
  have hrev : (⟨n, by omega⟩ : Fin 16).rev = ⟨m, by omega⟩ := Fin.ext (show 16 - (n + 1) = m by omega)
  simp only [roundKey, hrev]

/-- After n rounds of decryption m rounds of the encryption are left. -/
theorem runPair_decrypt_runOut (blk key : Block) (n m : Nat) (h : n + m = 16) :
    runPair (runOut blk key .encrypt) key .decrypt n (by omega) =
      (runPair blk key .encrypt m (by omega)).swap := by
  induction n generalizing m with
  | zero =>
    obtain rfl : m = 16 := by omega
    rw [runPair_zero, runOut_eq, permute_ipTable_fpTable, leftHalf_append, rightHalf_append, Prod.swap]
  | succ n ih =>
    rw [runPair_succ, ih (m + 1) (by omega), roundKey_decrypt _ h, runPair_succ]
    simp [Prod.swap]

theorem runOut_decrypt_runOut (blk key : Block) : runOut (runOut blk key .encrypt) key .decrypt = blk := by
  rw [runOut_eq (runOut blk key .encrypt), runPair_decrypt_runOut blk key 16 0 rfl, runPair_zero, Prod.swap,
    leftHalf_append_rightHalf, permute_fpTable_ipTable]

end Sys2Proof.Machine
end

section
/-! SUPPORT. What the key schedule means for a run: the key bits that no run reads, and the keys with constant halves
(41_key_schedule.md R124, R126). -/

namespace Sys2Proof.Machine

/-- Settles O44: C_0 and D_0 lack those bits, the subkeys come from C_0 and D_0, and a run from its round keys. -/
theorem keyBitsAtMultiplesOfEightAreIgnored : Obligations.KeyBitsAtMultiplesOfEightAreIgnored := by
  refine ⟨fun key key' h => ?_, KS_congr (by decide +kernel)⟩
  have hks : KS key = KS key' := KS_congr (initialKeyHalves_congr h)
  exact ⟨hks, fun blk d => RUN_congr (fun i => by rw [hks]) blk⟩

/-! Constant halves (R126) -/

/-- No rotation changes a half of all zeros or all ones. -/
theorem rotateLeft_of_constant {v : KeyHalf} (hv : v = 0 ∨ v = BitVec.allOnes 28) {k : Nat} (hk : k ≤ 28) :
    rotateLeft v k = v := by
  rcases hv with rfl | rfl
  · exact rotateLeft_of_zero k
  · exact rotateLeft_allOnes hk

section
variable {key : Block} (hc : (initialKeyHalves key).1 = 0 ∨ (initialKeyHalves key).1 = BitVec.allOnes 28)
  (hd : (initialKeyHalves key).2 = 0 ∨ (initialKeyHalves key).2 = BitVec.allOnes 28)
include hc hd

theorem keyHalves_of_constant (n : Nat) (h : n ≤ 16) : keyHalves key n h = initialKeyHalves key := by
  rw [keyHalves_eq, rotateLeft_of_constant hc (cumulativeShift_le h), rotateLeft_of_constant hd (cumulativeShift_le h)]

theorem getElem_KS_of_constant (i : Fin 16) : (KS key)[i] = compressKeyHalves (initialKeyHalves key) := by
  rw [getElem_KS, subkey, keyHalves_of_constant hc hd]

/-- Both directions take the one subkey in every round. -/
theorem roundKey_of_constant (d : Dir) (i : Fin 16) :
    roundKey d (KS key) i = compressKeyHalves (initialKeyHalves key) := by
  cases d with
  | encrypt => exact getElem_KS_of_constant hc hd i
  | decrypt => exact getElem_KS_of_constant hc hd i.rev

theorem runOut_encrypt_eq_decrypt_of_constant (blk : Block) : runOut blk key .encrypt = runOut blk key .decrypt :=
  runOut_congr (fun i => by rw [roundKey_of_constant hc hd, roundKey_of_constant hc hd]) blk

/-- The second encryption is the decryption that undoes the first. -/
theorem runOut_runOut_of_constant (blk : Block) : runOut (runOut blk key .encrypt) key .encrypt = blk := by
  rw [runOut_encrypt_eq_decrypt_of_constant hc hd, runOut_decrypt_runOut]

end

theorem getElem_KS_of_zero_halves {key : Block} (h0 : initialKeyHalves key = (0, 0)) (i : Fin 16) :
    (KS key)[i] = 0 := by
  have hpc2 : compressKeyHalves (0, 0) = 0 := by decide
  rw [getElem_KS_of_constant (.inl (by rw [h0])) (.inl (by rw [h0])), h0, hpc2]

/-- Settles O45: rotations leave constant halves as they are, so every round key of either direction is the same one
and encrypting is decrypting; the sixteen counts are a full turn for every key. The halves of the four keys and the
subkeys of the standard key are computed. -/
theorem constantKeyHalvesMakeEncryptionItsOwnInverse :
    Obligations.ConstantKeyHalvesMakeEncryptionItsOwnInverse := by
  refine ⟨fun key hc hd => ⟨keyHalves_of_constant hc hd, fun i j => ?_, fun blk => ?_⟩, by decide +kernel,
    fun i => ⟨?_, ?_⟩, by decide +kernel, keyHalves_sixteen⟩
  · rw [getElem_KS_of_constant hc hd i, getElem_KS_of_constant hc hd j]
  · exact ⟨runOut_encrypt_eq_decrypt_of_constant hc hd blk, runOut_runOut_of_constant hc hd blk⟩
  · exact getElem_KS_of_zero_halves (by decide +kernel) i
  · exact getElem_KS_of_zero_halves (by decide +kernel) i

end Sys2Proof.Machine
end

section
/-! SUPPORT. The S-box lookup in DES bits, and the round function through E(R) XOR K alone (42_feistel_round.md R142,
R143). -/

namespace Sys2Proof.Machine

/-! Row and column of a group (R142) -/

theorem toNat_sboxRow (g : BitVec 6) : (sboxRow g).toNat = 2 * (desBit g 1).toNat + (desBit g 6).toNat := by
  revert g; decide

theorem toNat_sboxCol (g : BitVec 6) :
    (sboxCol g).toNat =
      8 * (desBit g 2).toNat + 4 * (desBit g 3).toNat + 2 * (desBit g 4).toNat + (desBit g 5).toNat := by
  revert g; decide

theorem sboxLookup_eq_getElem (b : Fin 8) {g : BitVec 6} {row : Fin 4} {col : Fin 16}
    (hrow : row.val = (sboxRow g).toNat) (hcol : col.val = (sboxCol g).toNat) :
    sboxLookup b g = sboxes[b][row][col] := by
  simp only [sboxLookup, Fin.getElem_fin, hrow, hcol]

/-- Settles O40: the row and the column of a group, as numbers, are the sums of its DES bits; the corner cases are
computed. -/
theorem sboxRowAndColumn : Obligations.SboxRowAndColumn := by
  refine ⟨fun b g row col hrow hcol => ?_, by decide⟩
  exact sboxLookup_eq_getElem b (hrow.trans (toNat_sboxRow g).symm) (hcol.trans (toNat_sboxCol g).symm)

/-! The round function (R143) -/

theorem f_eq (r : Half) (k : Subkey) : f r k = permute pTable (substitute (permute eTable r ^^^ k)) := rfl

theorem f_congr {r r' : Half} {k k' : Subkey} (h : permute eTable r ^^^ k = permute eTable r' ^^^ k') :
    f r k = f r' k' := by
  rw [f_eq, f_eq, h]

/-- The outputs stand most significant first: below the nibble of box b + 1 are those of the 7 - b boxes after it. -/
theorem extractLsb'_substitute (x : Subkey) (b : Fin 8) :
    (substitute x).extractLsb' (28 - 4 * b.val) 4 = sboxLookup b (sboxGroup x b) := by
  rw [substitute]
  fin_cases b <;>
    simp (disch := decide) only [BitVec.extractLsb'_append_eq_of_le, BitVec.extractLsb'_append_eq_of_add_le] <;>
    exact BitVec.extractLsb'_eq_self

/-- Settles O41: s is the substitution of E(R) XOR K, which is all that f reads of R and K; with the boxes counted from
0, output b stands from bus bit 28 - 4b and group b from bus bit 42 - 6b. R144's values are computed. -/
theorem roundFunctionIsSboxesThenP : Obligations.RoundFunctionIsSboxesThenP := by
  refine ⟨fun r k => ⟨_, f_eq r k, fun b => ?_⟩, fun _ _ _ _ h => f_congr h, by decide +kernel⟩
  have hout : 32 - 4 * (b.val + 1) = 28 - 4 * b.val := by omega
  have hgroup : 48 - 6 * (b.val + 1) = 42 - 6 * b.val := by omega
  rw [hout, hgroup]
  exact extractLsb'_substitute _ b

end Sys2Proof.Machine
end

section
/-! SUPPORT. The stages compute RUN: the state after n rounds in closed form, and the edges that lead to it
(43_cipher_engine.md R165 to R169). -/

namespace Sys2Proof.Machine

/-! One stage at an edge (44_commands.md R190) -/

theorem edge_of_round {p : PortIn} {s : State} {i : Fin 16} (hr : p.rst = false) (hb : s.busy = true)
    (hs : s.stage.val = i.val + 1) : edge p s = .next (roundStage i s) := by
  rw [edge, hb, arbitrate_of_busy hr]
  exact performStage_round i s hs

theorem edge_of_final {p : PortIn} {s : State} (hr : p.rst = false) (hb : s.busy = true) (hs : s.stage.val = 17) :
    edge p s = .next (fpStage s) := by
  rw [edge, hb, arbitrate_of_busy hr]
  exact performStage_final s hs

/-- Settles O31: the edge performs the round stage, whose updates the statement writes out. -/
theorem roundStageComputesOneRound : Obligations.RoundStageComputesOneRound :=
  fun _ _ _ hr hb hs => edge_of_round hr hb hs

/-- Settles O32: the edge performs the FP stage, whose updates the statement writes out. -/
theorem finalStageWritesTheResult : Obligations.FinalStageWritesTheResult :=
  fun _ _ hr hb hs => edge_of_final hr hb hs

/-! The trace of a run, entry by entry (R164) -/

theorem runEntry_round (blk key : Block) (d : Dir) (i : Fin 16) :
    runEntry blk key d ⟨i.val + 1, by omega⟩ = runRoundEntry blk key d i := by
  have hle : i.val + 1 ≤ 16 := i.isLt
  simp [runEntry, hle]

/-- The trace buffer when the entries before `m` are written: RUN's below `m`, NONE from there on (R168). -/
def runTraceBelow (blk key : Block) (d : Dir) (m : Nat) : Vector TraceEntry 18 :=
  Vector.ofFn fun j => if j.val < m then runEntry blk key d j else .empty

theorem getElem_runTraceBelow (blk key : Block) (d : Dir) (m : Nat) {j : Nat} (hj : j < 18) :
    (runTraceBelow blk key d m)[j] = if j < m then runEntry blk key d ⟨j, hj⟩ else .empty :=
  Vector.getElem_ofFn hj

theorem runTraceBelow_zero (blk key : Block) (d : Dir) :
    runTraceBelow blk key d 0 = Vector.replicate 18 .empty := by
  apply Vector.ext
  intro j hj
  rw [getElem_runTraceBelow, if_neg (Nat.not_lt_zero j), Vector.getElem_replicate]

/-- Writing RUN's entry at the first place that is still NONE. -/
theorem runTraceBelow_set (blk key : Block) (d : Dir) {m : Nat} (h : m < 18) :
    (runTraceBelow blk key d m).set m (runEntry blk key d ⟨m, h⟩) = runTraceBelow blk key d (m + 1) := by
  apply Vector.ext
  intro j hj
  rw [Vector.getElem_set]
  split
  case isTrue hm =>
    subst hm
    rw [getElem_runTraceBelow, if_pos (Nat.lt_succ_self _)]
  case isFalse hm =>
    have hiff : j < m ↔ j < m + 1 := by omega
    rw [getElem_runTraceBelow, getElem_runTraceBelow, if_congr hiff rfl rfl]

theorem runTraceBelow_eighteen (blk key : Block) (d : Dir) :
    runTraceBelow blk key d 18 = runTrace blk key d := by
  apply Vector.ext
  intro j hj
  rw [getElem_runTraceBelow, if_pos hj, runTrace, Vector.getElem_ofFn]

/-! The state after n rounds of the run that a start in direction d begins at s (R168) -/

/-- The start's state, with RUN's pair n in L and R, and STAGE and TRACE advanced to it. -/
def afterRounds (d : Dir) (s : State) (n : Nat) (h : n ≤ 16) : State :=
  { beginRun d s with
    l := (runPair s.blk s.key d n h).1
    r := (runPair s.blk s.key d n h).2
    stage := ⟨n + 1, by omega⟩
    trace := runTraceBelow s.blk s.key d (n + 1) }

theorem afterRounds_zero (d : Dir) (s : State) : afterRounds d s 0 (Nat.zero_le 16) = beginRun d s := by
  have htrace : (beginRun d s).trace = runTraceBelow s.blk s.key d 1 := by
    rw [beginRun_trace, ← runTraceBelow_zero s.blk s.key d]
    exact runTraceBelow_set s.blk s.key d (by decide)
  rw [afterRounds, ← htrace]
  rfl

/-- Round n + 1 advances pair, STAGE and TRACE together. -/
theorem roundStage_afterRounds {s : State} (hsk : s.sk = KS s.key) (d : Dir) (n : Nat) (h : n < 16) :
    roundStage ⟨n, h⟩ (afterRounds d s n (Nat.le_of_lt h)) = afterRounds d s (n + 1) h := by
  have htrace := runTraceBelow_set s.blk s.key d (Nat.succ_lt_succ (Nat.lt_succ_of_lt h))
  rw [runEntry_round s.blk s.key d ⟨n, h⟩] at htrace
  simp only [afterRounds, ← htrace, roundStage, beginRun_sk, hsk]
  rfl

/-- The FP stage writes the one entry that is missing after round 16 (R167). -/
theorem fpStage_afterRounds_trace (d : Dir) (s : State) :
    (fpStage (afterRounds d s 16 (Nat.le_refl 16))).trace = runTrace s.blk s.key d := by
  rw [fpStage_trace, ← runTraceBelow_eighteen]
  exact runTraceBelow_set s.blk s.key d (m := 17) (by decide)

/-! Consecutive edges without reset (R168) -/

theorem edges_singleton (p : PortIn) (s : State) : edges [p] s = edge p s := by
  rw [edges]
  cases edge p s <;> rfl

theorem edges_concat {ps : List PortIn} {s t : State} (h : edges ps s = .next t) (p : PortIn) :
    edges (ps ++ [p]) s = edge p t := by
  induction ps generalizing s with
  | nil =>
    cases h
    exact edges_singleton p t
  | cons q qs ih =>
    rw [edges] at h
    rw [List.cons_append, edges]
    cases hq : edge q s <;> rw [hq] at h
    case next u => exact ih h
    all_goals cases h

/-- Every edge of the run performs the round that STAGE names, whatever is offered. -/
theorem edges_beginRun {s : State} (hsk : s.sk = KS s.key) (d : Dir) (ps : List PortIn)
    (hps : ∀ p ∈ ps, p.rst = false) (h : ps.length ≤ 16) :
    edges ps (beginRun d s) = .next (afterRounds d s ps.length h) := by
  induction ps using List.reverseRecOn with
  | nil => exact congrArg _ (afterRounds_zero d s).symm
  | append_singleton ps p ih =>
    simp only [List.length_append, List.length_singleton] at h ⊢
    rw [edges_concat (ih (fun q hq => hps q (by simp [hq])) (by omega)) p, ← roundStage_afterRounds hsk]
    exact edge_of_round (hps p (by simp)) rfl rfl

/-- The seventeenth edge performs the FP stage. -/
theorem edges_beginRun_seventeen {s : State} (hsk : s.sk = KS s.key) (d : Dir) {ps : List PortIn}
    (hps : ∀ p ∈ ps, p.rst = false) (hlen : ps.length = 17) :
    edges ps (beginRun d s) = .next (fpStage (afterRounds d s 16 (Nat.le_refl 16))) := by
  obtain rfl | ⟨qs, p, rfl⟩ := List.eq_nil_or_concat' ps
  · simp at hlen
  have hqs : qs.length = 16 := by simpa using hlen
  rw [edges_concat (edges_beginRun hsk d qs (fun q hq => hps q (by simp [hq])) hqs.le) p]
  simp only [hqs]
  exact edge_of_final (hps p (by simp)) rfl rfl

/-- A start on a loaded key and block begins the run in its direction (44_commands.md R197, R198). -/
theorem exec_start_of_loaded {i : Instr} {d : Dir} {s : State}
    (hi : (i, d) ∈ [(Instr.enc, Dir.encrypt), (Instr.dec, Dir.decrypt)]) (hk : s.keyv = true) (hb : s.blkv = true) :
    exec i s = .next (beginRun d s) := by
  rw [exec_eq, ← startRun_of_loaded d s hk hb]
  simp only [List.mem_cons, List.not_mem_nil, or_false, Prod.mk.injEq] at hi
  rcases hi with ⟨rfl, rfl⟩ | ⟨rfl, rfl⟩ <;> rfl

/-- Settles O33: the start begins the run, the edges lead to the closed forms, and these show what the statement
lists. -/
theorem stagesComputeRun : Obligations.StagesComputeRun := by
  intro i d s s1 hi hk hb hsk hexec
  rw [exec_start_of_loaded hi hk hb] at hexec
  cases hexec
  refine ⟨fun ps hps h => ⟨_, edges_beginRun hsk d ps hps h, ?_⟩,
    fun ps hps hlen => ⟨_, edges_beginRun_seventeen hsk d hps hlen, ?_⟩⟩
  · refine ⟨rfl, rfl, rfl, rfl, rfl, rfl, rfl, rfl, rfl, fun j => ⟨fun hj => ?_, fun hj => ?_⟩⟩
    · exact (getElem_runTraceBelow _ _ _ _ j.isLt).trans (if_pos (Nat.lt_succ_of_le hj))
    · exact (getElem_runTraceBelow _ _ _ _ j.isLt).trans (if_neg (Nat.not_lt.2 hj))
  · exact ⟨rfl, rfl, rfl, rfl, Prod.ext rfl (fpStage_afterRounds_trace d s), rfl⟩

/-- Settles O48: both runs leave RUN's output and trace, which read BLK, KEY and the direction alone. -/
theorem runsAreDeterministic : Obligations.RunsAreDeterministic := by
  intro i s s' s1 s1' ps ps' hi hs hs' hk hk' hb hb' hblk hkey hexec hexec' hps hps' hlen hlen'
  obtain ⟨d, hd⟩ : ∃ d, (i, d) ∈ [(Instr.enc, Dir.encrypt), (Instr.dec, Dir.decrypt)] := by
    simp only [List.mem_cons, List.not_mem_nil, or_false] at hi
    rcases hi with rfl | rfl
    · exact ⟨.encrypt, by simp⟩
    · exact ⟨.decrypt, by simp⟩
  obtain ⟨t, ht, _, _, _, _, hrun, _⟩ := (stagesComputeRun i d s s1 hd hk hb (hs.subkeys hk) hexec).2 ps hps hlen
  obtain ⟨t', ht', _, _, _, _, hrun', _⟩ :=
    (stagesComputeRun i d s' s1' hd hk' hb' (hs'.subkeys hk') hexec').2 ps' hps' hlen'
  have hsame : (t.dout, t.trace) = (t'.dout, t'.trace) := by rw [hrun, hrun', hblk, hkey]
  exact ⟨t, t', ht, ht', congrArg Prod.fst hsame, congrArg Prod.snd hsame⟩

end Sys2Proof.Machine
end

section
/-! SUPPORT. The two symmetries of RUN: decryption undoes encryption, and complemented inputs give the complemented
result (43_cipher_engine.md R170, R171). -/

namespace Sys2Proof.Machine

/-- Settles O46: the decrypt run goes through the encrypt run's pairs backwards, down to the block itself. -/
theorem decryptionUndoesEncryption : Obligations.DecryptionUndoesEncryption := fun blk key =>
  ⟨runOut_decrypt_runOut blk key, fun n h => runPair_decrypt_runOut blk key n (16 - n) (Nat.add_sub_of_le h)⟩

/-! Complement of a field and in an XOR -/

theorem extractLsb'_not {w start len : Nat} (v : BitVec w) (h : start + len ≤ w) :
    (~~~v).extractLsb' start len = ~~~(v.extractLsb' start len) := by
  apply BitVec.eq_of_getLsbD_eq
  intro i hi
  have hw : start + i < w := by omega
  simp [hi, hw]

theorem not_xor_not {w : Nat} (a b : BitVec w) : ~~~a ^^^ ~~~b = a ^^^ b := by
  rw [← BitVec.not_xor_left, ← BitVec.not_xor_right, BitVec.not_not]

/-! Complement of the key: every subkey is complemented (R171) -/

theorem rotateLeft_not (v : KeyHalf) {k : Nat} (hk : k ≤ 28) : rotateLeft (~~~v) k = ~~~(rotateLeft v k) := by
  apply BitVec.eq_of_getMsbD_eq
  intro p hp
  rw [getMsbD_rotateLeft _ hk hp, BitVec.getMsbD_not, BitVec.getMsbD_not, getMsbD_rotateLeft v hk hp]
  simp [hp, Nat.mod_lt]

theorem initialKeyHalves_not (key : Block) :
    initialKeyHalves (~~~key) = (~~~(initialKeyHalves key).1, ~~~(initialKeyHalves key).2) := by
  rw [initialKeyHalves, permute_not, cHalf, dHalf, extractLsb'_not _ (by decide), extractLsb'_not _ (by decide)]
  rfl

theorem keyHalves_not (key : Block) (n : Nat) (h : n ≤ 16) :
    keyHalves (~~~key) n h = (~~~(keyHalves key n h).1, ~~~(keyHalves key n h).2) := by
  have hle := cumulativeShift_le h
  rw [keyHalves_eq, keyHalves_eq, initialKeyHalves_not, rotateLeft_not _ hle, rotateLeft_not _ hle]

theorem compressKeyHalves_not (c d : KeyHalf) : compressKeyHalves (~~~c, ~~~d) = ~~~(compressKeyHalves (c, d)) := by
  rw [compressKeyHalves, compressKeyHalves, ← BitVec.not_append, permute_not]

theorem getElem_KS_not (key : Block) (i : Fin 16) : (KS (~~~key))[i] = ~~~(KS key)[i] := by
  rw [getElem_KS, getElem_KS, subkey, keyHalves_not, compressKeyHalves_not, subkey]

/-! Complement of the block: every half is complemented, because f is unchanged (R171) -/

theorem expand_not_xor_not (r : Half) (k : Subkey) :
    permute eTable (~~~r) ^^^ ~~~k = permute eTable r ^^^ k := by
  rw [permute_not, not_xor_not]

theorem f_not (r : Half) (k : Subkey) : f (~~~r) (~~~k) = f r k := f_congr (expand_not_xor_not r k)

theorem runPair_not (blk key : Block) (n : Nat) (h : n ≤ 16) :
    runPair (~~~blk) (~~~key) .encrypt n h =
      (~~~(runPair blk key .encrypt n h).1, ~~~(runPair blk key .encrypt n h).2) := by
  induction n with
  | zero =>
    rw [runPair_zero, permute_not, leftHalf, rightHalf, extractLsb'_not _ (by decide), extractLsb'_not _ (by decide)]
    rfl
  | succ n ih =>
    have hkey : roundKey .encrypt (KS (~~~key)) ⟨n, h⟩ = ~~~(roundKey .encrypt (KS key) ⟨n, h⟩) :=
      getElem_KS_not key ⟨n, h⟩
    rw [runPair_succ, ih, hkey, f_not, ← BitVec.not_xor_left, runPair_succ]

theorem runOut_not (blk key : Block) : runOut (~~~blk) (~~~key) .encrypt = ~~~(runOut blk key .encrypt) := by
  rw [runOut_eq, runPair_not, ← BitVec.not_append, permute_not, runOut_eq]

/-- Settles O47: complement passes through every permutation and rotation and cancels in E(R) XOR k; the example is
computed. -/
theorem complementedInputsGiveTheComplementedResult : Obligations.ComplementedInputsGiveTheComplementedResult :=
  ⟨runOut_not, getElem_KS_not, fun r k => ⟨expand_not_xor_not r k, f_not r k⟩, runPair_not, by decide +kernel,
    by decide⟩

end Sys2Proof.Machine
end

section
/-! SUPPORT. The cases of one edge as equations, and what the commands leave unchanged (44_commands.md R190, R191,
R201). -/

namespace Sys2Proof.Machine

/-! One edge (R190) -/

theorem edge_of_reset {p : PortIn} (s : State) (hr : p.rst = true) : edge p s = .next (resetEdge s) := by
  rw [edge, arbitrate_of_reset s.busy hr]

theorem edge_of_command {p : PortIn} {s : State} (hr : p.rst = false) (hb : s.busy = false)
    (hv : p.cmdValid = true) : edge p s = exec (decode (commandWord p.cmdOp p.cmdData)) s := by
  rw [edge, hb, arbitrate_of_command hr hv]

theorem edge_of_quiet {p : PortIn} {s : State} (hr : p.rst = false) (hb : s.busy = false)
    (hv : p.cmdValid = false) : edge p s = .next s := by
  rw [edge, hb, arbitrate_of_quiet hr hv]

/-- Acceptance is the handshake (10_state.md R37). -/
theorem exists_arbitrate_accept_iff_handshake (p : PortIn) (s : State) :
    (∃ i, arbitrate p s.busy = .accept i) ↔ p.cmdValid = true ∧ cmdReady p s = true := by
  rw [exists_arbitrate_accept_iff, cmdReady_iff]
  tauto

/-- Settles O8: each case of the arbitration has its equation, and acceptance is the handshake. -/
theorem edgeCasesInOrder : Obligations.EdgeCasesInOrder := fun p s =>
  ⟨edge_of_reset s, fun _ => edge_of_round, edge_of_final, edge_of_command, edge_of_quiet,
    exists_arbitrate_accept_iff_handshake p s⟩

/-- Settles O10: the edge answers the state itself, so every output stays. -/
theorem idleEdgeChangesNothing : Obligations.IdleEdgeChangesNothing := fun _ s hr hb hv =>
  ⟨s, edge_of_quiet hr hb hv, rfl, fun _ => rfl⟩

/-! What a start command leaves unchanged (R191, R197 to R199) -/

/-- A start command is an error or the start of a run: what both keep, it keeps. -/
theorem startRun_keeps {α : Type} (field : State → α) {d : Dir} {s : State}
    (hraise : ∀ c, field (raiseError c s) = field s) (hbegin : field (beginRun d s) = field s) :
    field (startRun d s) = field s := by
  rcases startRun_cases d s with ⟨_, h⟩ | ⟨_, _, h⟩ | ⟨_, _, h⟩ <;> rw [h]
  · exact hraise .noKey
  · exact hraise .noBlock
  · exact hbegin

@[simp] theorem startRun_key (d : Dir) (s : State) : (startRun d s).key = s.key :=
  startRun_keeps State.key (raiseError_key · s) rfl

@[simp] theorem startRun_sk (d : Dir) (s : State) : (startRun d s).sk = s.sk :=
  startRun_keeps State.sk (raiseError_sk · s) rfl

@[simp] theorem startRun_keyv (d : Dir) (s : State) : (startRun d s).keyv = s.keyv :=
  startRun_keeps State.keyv (raiseError_keyv · s) rfl

@[simp] theorem startRun_blk (d : Dir) (s : State) : (startRun d s).blk = s.blk :=
  startRun_keeps State.blk (raiseError_blk · s) rfl

@[simp] theorem startRun_blkv (d : Dir) (s : State) : (startRun d s).blkv = s.blkv :=
  startRun_keeps State.blkv (raiseError_blkv · s) rfl

@[simp] theorem startRun_dout (d : Dir) (s : State) : (startRun d s).dout = s.dout :=
  startRun_keeps State.dout (raiseError_dout · s) rfl

@[simp] theorem startRun_host (d : Dir) (s : State) : (startRun d s).host = s.host :=
  startRun_keeps State.host (raiseError_host · s) rfl

/-- A start command that fails its check is the error effect alone (R199). -/
theorem startRun_of_not_loaded (d : Dir) {s : State} (h : s.keyv = false ∨ s.blkv = false) :
    ∃ c, startRun d s = raiseError c s := by
  rcases startRun_cases d s with ⟨_, hs⟩ | ⟨_, _, hs⟩ | ⟨hk, hb, _⟩
  · exact ⟨_, hs⟩
  · exact ⟨_, hs⟩
  · simp [hk, hb] at h

/-! What a command leaves unchanged (R191) -/

@[simp] theorem afterCommand_dout (i : Instr) (s : State) : (afterCommand i s).dout = s.dout := by
  cases i <;> simp [afterCommand]

@[simp] theorem afterCommand_host (i : Instr) (s : State) : (afterCommand i s).host = s.host := by
  cases i <;> simp [afterCommand]

/-- Only a start that runs writes the elements of a run. -/
theorem afterCommand_run_elements {i : Instr} {s : State}
    (h : i ∉ [Instr.enc, Instr.dec] ∨ s.keyv = false ∨ s.blkv = false) :
    (afterCommand i s).stage = s.stage ∧ (afterCommand i s).busy = s.busy ∧ (afterCommand i s).done = s.done ∧
    (afterCommand i s).dir = s.dir ∧ (afterCommand i s).l = s.l ∧ (afterCommand i s).r = s.r ∧
    (afterCommand i s).trace = s.trace := by
  cases i with
  | enc =>
    obtain ⟨c, hc⟩ := startRun_of_not_loaded .encrypt (h.resolve_left (by simp))
    simp [afterCommand, hc]
  | dec =>
    obtain ⟨c, hc⟩ := startRun_of_not_loaded .decrypt (h.resolve_left (by simp))
    simp [afterCommand, hc]
  | _ => simp [afterCommand]

theorem afterCommand_key_elements {i : Instr} (h : ∀ key, i ≠ .ldkey key) (s : State) :
    (afterCommand i s).key = s.key ∧ (afterCommand i s).sk = s.sk ∧ (afterCommand i s).keyv = s.keyv := by
  cases i with
  | ldkey key => exact absurd rfl (h key)
  | _ => simp [afterCommand]

theorem afterCommand_block_elements {i : Instr} (h : ∀ blk, i ≠ .ldblk blk) (s : State) :
    (afterCommand i s).blk = s.blk ∧ (afterCommand i s).blkv = s.blkv := by
  cases i with
  | ldblk blk => exact absurd rfl (h blk)
  | _ => simp [afterCommand]

/-- NOP, the loads and a start that runs leave the error as it is. -/
theorem afterCommand_error_elements {i : Instr} {s : State}
    (h : (opcode i).toNat < 3 ∨ (i ∈ [Instr.enc, Instr.dec] ∧ s.keyv = true ∧ s.blkv = true)) :
    (afterCommand i s).err = s.err ∧ (afterCommand i s).errCode = s.errCode := by
  rcases h with hop | ⟨hi, hk, hb⟩
  · cases i with
    | nop | ldkey _ | ldblk _ => exact ⟨rfl, rfl⟩
    | _ => simp [opcode] at hop
  · simp only [List.mem_cons, List.not_mem_nil, or_false] at hi
    rcases hi with rfl | rfl <;> simp [afterCommand, startRun_of_loaded _ s hk hb]

/-- Settles O27: a command completes with `afterCommand`, whose frame is stated element by element above. -/
theorem commandsWriteOnlyTheirElements : Obligations.CommandsWriteOnlyTheirElements := by
  intro i s t hexec
  rw [exec_eq] at hexec
  cases hexec
  exact ⟨afterCommand_dout i s, afterCommand_host i s, afterCommand_run_elements,
    fun h => afterCommand_key_elements h s, fun h => afterCommand_block_elements h s, afterCommand_error_elements⟩

end Sys2Proof.Machine
end

section
/-! SUPPORT. NOP, the loads, CLRERR and the reserved ops: their words, their effects and their examples
(44_commands.md R193 to R196, R200). -/

namespace Sys2Proof.Machine

/-! The words -/

/-- A command without an operand is decoded from its op, whatever the data (30_encoding.md R76). -/
theorem decode_commandWord_opcode {i : Instr} (hkey : opcode i ≠ 0x1#4) (hblk : opcode i ≠ 0x2#4) (data : Block) :
    decode (commandWord (opcode i) data) = i := by
  rw [decode_commandWord, decodeFields_opcode hkey hblk]

theorem decode_ldkey (key : Block) : decode (commandWord 0x1#4 key) = .ldkey key := decode_commandWord _ key

theorem decode_ldblk (blk : Block) : decode (commandWord 0x2#4 blk) = .ldblk blk := decode_commandWord _ blk

/-! NOP (R193) -/

/-- Settles O16: NOP answers the state itself, and only an idle machine accepts. -/
theorem nopChangesNothing : Obligations.NopChangesNothing := by
  refine ⟨decode_commandWord_opcode (i := .nop) (by decide) (by decide), exec_eq .nop, fun p hacc => ?_, rfl, rfl⟩
  obtain ⟨_, hidle, _⟩ := arbitrate_accept hacc
  cases hidle

/-! The loads (R194, R195) -/

/-- STATUS bit 8 is KEYV (10_state.md R31). -/
theorem statusWord_bit_eight (s : State) : (statusWord s)[8] = s.keyv := by
  rw [statusWord, ← BitVec.getLsbD_eq_getElem]
  simp only [BitVec.getLsbD_append]
  simp

/-- Loading the key that a legal state holds writes what is there (10_state.md R29). -/
theorem afterCommand_ldkey_of_loaded {s : State} (hs : s.Inv) (hk : s.keyv = true) :
    afterCommand (.ldkey s.key) s = s := by
  rw [afterCommand, ← hs.subkeys hk, ← hk]

/-- Settles O17: the one state LDKEY leaves shows each clause; the example's subkeys are computed. -/
theorem ldkeyLoadsKeyAndSubkeys : Obligations.LdkeyLoadsKeyAndSubkeys := by
  refine ⟨decode_ldkey, fun key s => exec_eq (.ldkey key) s, fun s hs hk => ?_, fun key s => ?_, by decide +kernel⟩
  · rw [exec_eq, afterCommand_ldkey_of_loaded hs hk]
  · exact ⟨_, exec_eq (.ldkey key) s, statusWord_bit_eight _, fun _ _ => rfl⟩

/-- Settles O18: LDBLK leaves its one state, and the example's word is computed. -/
theorem ldblkLoadsBlock : Obligations.LdblkLoadsBlock :=
  ⟨decode_ldblk, fun blk s => exec_eq (.ldblk blk) s, by decide⟩

/-! CLRERR (R196) -/

theorem clearError_of_clear {s : State} (hs : s.Inv) (h : s.err = false) : clearError s = s := by
  rw [clearError, ← hs.err_code.2 h, ← h]

/-- A start never clears an error: a failed check keeps ERR set, and a run leaves it. -/
theorem startRun_err_of_set (d : Dir) {s : State} (h : s.err = true) : (startRun d s).err = true := by
  rw [← h]
  exact startRun_keeps State.err (fun c => by rw [raiseError_err, h]) rfl

theorem afterCommand_err_of_set {i : Instr} (hi : i ≠ .clrerr) {s : State} (h : s.err = true) :
    (afterCommand i s).err = true := by
  cases i with
  | clrerr => exact absurd rfl hi
  | enc => exact startRun_err_of_set .encrypt h
  | dec => exact startRun_err_of_set .decrypt h
  | _ => simp [afterCommand, h]

/-- Settles O19: CLRERR is `clearError`, and after any other command a set ERR is still set; the example is
computed. -/
theorem clrerrClearsTheError : Obligations.ClrerrClearsTheError := by
  refine ⟨decode_commandWord_opcode (i := .clrerr) (by decide) (by decide), exec_eq .clrerr, fun s hs herr => ?_,
    fun i s t hexec hset hclear => ?_, _, _, exec_eq _ _, by decide, exec_eq _ _, by decide⟩
  · exact (exec_eq .clrerr s).trans (congrArg _ (clearError_of_clear hs herr))
  · rw [exec_eq] at hexec
    cases hexec
    by_contra hi
    simp [afterCommand_err_of_set hi hset] at hclear

/-! The reserved ops (R200) -/

/-- The commands of the ops 0x6 to 0xF. -/
def reservedCommands : List Instr :=
  [.reserved6, .reserved7, .reserved8, .reserved9, .reservedA, .reservedB, .reservedC, .reservedD, .reservedE,
    .reservedF]

theorem mem_reservedCommands_iff (i : Instr) : i ∈ reservedCommands ↔ 6 ≤ (opcode i).toNat := by
  cases i <;> simp [reservedCommands, opcode]

/-- Settles O23: the reserved commands are those of an op of 6 or more, and all of them are ILLEGAL_CMD's error
effect. -/
theorem reservedOpsRaiseIllegalCmd : Obligations.ReservedOpsRaiseIllegalCmd := by
  refine ⟨fun i hi s => ?_, fun op data hop => ?_, _, exec_eq _ _, by decide⟩
  · rw [exec_eq, afterCommand_of_reserved ((mem_reservedCommands_iff i).1 hi)]
    rfl
  · exact (mem_reservedCommands_iff _).2 (by simpa using hop)

end Sys2Proof.Machine
end

section
/-! SUPPORT. ENC and DEC: the check of the key and the block, the start, and the standard vector both ways
(44_commands.md R197 to R199, R165). -/

namespace Sys2Proof.Machine

/-! The check (R199) -/

theorem exists_start_direction {i : Instr} (hi : i ∈ [Instr.enc, Instr.dec]) :
    ∃ d, (i, d) ∈ [(Instr.enc, Dir.encrypt), (Instr.dec, Dir.decrypt)] := by
  simp only [List.mem_cons, List.not_mem_nil, or_false] at hi
  rcases hi with rfl | rfl
  · exact ⟨.encrypt, by simp⟩
  · exact ⟨.decrypt, by simp⟩

/-- ENC and DEC are the start command of their direction. -/
theorem exec_start {i : Instr} {d : Dir} (hi : (i, d) ∈ [(Instr.enc, Dir.encrypt), (Instr.dec, Dir.decrypt)])
    (s : State) : exec i s = .next (startRun d s) := by
  simp only [List.mem_cons, List.not_mem_nil, or_false, Prod.mk.injEq] at hi
  rcases hi with ⟨rfl, rfl⟩ | ⟨rfl, rfl⟩ <;> rfl

section
variable {i : Instr} {d : Dir} (hi : (i, d) ∈ [(Instr.enc, Dir.encrypt), (Instr.dec, Dir.decrypt)])
include hi

theorem exec_start_of_no_key {s : State} (hk : s.keyv = false) : exec i s = .next (raiseError .noKey s) := by
  rw [exec_start hi, startRun_of_no_key d s hk]

theorem exec_start_of_no_block {s : State} (hk : s.keyv = true) (hb : s.blkv = false) :
    exec i s = .next (raiseError .noBlock s) := by
  rw [exec_start hi, startRun_of_no_block d s hk hb]

end

/-- Settles O22: the three cases of the check, with the error effect written out. -/
theorem startIsCheckedKeyFirst : Obligations.StartIsCheckedKeyFirst := by
  intro i hi s
  obtain ⟨d, hd⟩ := exists_start_direction hi
  exact ⟨exec_start_of_no_key hd, exec_start_of_no_block hd, fun hk hb => ⟨_, exec_start_of_loaded hd hk hb, rfl⟩⟩

/-! A key and a block loaded one after the other, and the run on them -/

/-- The state after LDKEY and LDBLK. -/
def afterLoads (key blk : Block) (s : State) : State := afterCommand (.ldblk blk) (afterCommand (.ldkey key) s)

/-- STATUS right after a start without an error: BUSY, KEYV, BLKV, STAGE = 1 and the direction (10_state.md R31). -/
theorem statusWord_beginRun (d : Dir) {s : State} (hk : s.keyv = true) (hb : s.blkv = true) (herr : s.err = false)
    (hcode : s.errCode = .none) : statusWord (beginRun d s) = if d.bit then 0x0709 else 0x0701 := by
  cases d <;> simp [statusWord, hk, hb, herr, hcode] <;> rfl

/-- STATUS after its run: DONE, KEYV, BLKV, STAGE = 0 and the direction. -/
theorem statusWord_run_completed (d : Dir) {s : State} (hk : s.keyv = true) (hb : s.blkv = true)
    (herr : s.err = false) (hcode : s.errCode = .none) :
    statusWord (fpStage (afterRounds d s 16 (Nat.le_refl 16))) = if d.bit then 0x030A else 0x0302 := by
  cases d <;> simp [statusWord, afterRounds, hk, hb, herr, hcode] <;> rfl

/-- LDKEY, LDBLK and a start without an error, and 17 edges without reset: the run's start, its result and STATUS. -/
theorem run_after_loads {i : Instr} {d : Dir} (hi : (i, d) ∈ [(Instr.enc, Dir.encrypt), (Instr.dec, Dir.decrypt)])
    (key blk : Block) {s : State} (herr : s.err = false) (hcode : s.errCode = .none) :
    ∃ a b c, exec (.ldkey key) s = .next a ∧ exec (.ldblk blk) a = .next b ∧ exec i b = .next c ∧
      statusWord c = (if d.bit then 0x0709 else 0x0701) ∧
      c.trace[0] = .ofInit (leftHalf (permute ipTable blk)) (rightHalf (permute ipTable blk)) ∧
      ∀ ps : List PortIn, (∀ p ∈ ps, p.rst = false) → ps.length = 17 →
        ∃ t, edges ps c = .next t ∧ t.dout = runOut blk key d ∧
          statusWord t = (if d.bit then 0x030A else 0x0302) := by
  have hsk : (afterLoads key blk s).sk = KS (afterLoads key blk s).key := rfl
  refine ⟨_, afterLoads key blk s, _, exec_eq _ s, exec_eq _ _, exec_start_of_loaded hi rfl rfl,
    statusWord_beginRun d rfl rfl herr hcode, rfl, fun ps hps hlen => ?_⟩
  exact ⟨_, edges_beginRun_seventeen hsk d hps hlen, rfl, statusWord_run_completed d rfl rfl herr hcode⟩

/-! The standard vector (95_test_vectors.md section 1.3) -/

theorem runOut_standard_vector : runOut 0x0123456789ABCDEF 0x133457799BBCDFF1 .encrypt = 0x85E813540F0AB405 := by
  decide +kernel

theorem runOut_standard_vector_back :
    runOut 0x85E813540F0AB405 0x133457799BBCDFF1 .decrypt = 0x0123456789ABCDEF := by
  rw [← runOut_standard_vector, runOut_decrypt_runOut]

theorem initialPermutation_standard_block :
    leftHalf (permute ipTable 0x0123456789ABCDEF) = 0xCC00CCFF ∧
    rightHalf (permute ipTable 0x0123456789ABCDEF) = 0xF0AAF0AA := by decide +kernel

/-- Settles O20: the check's cases, the start, whose updates the statement writes out, and the run on the standard
pair. -/
theorem encStartsAnEncryptRun : Obligations.EncStartsAnEncryptRun := by
  have hi : (Instr.enc, Dir.encrypt) ∈ [(Instr.enc, Dir.encrypt), (Instr.dec, Dir.decrypt)] := by simp
  refine ⟨decode_commandWord_opcode (i := .enc) (by decide) (by decide), rfl, fun _ => exec_start_of_no_key hi,
    fun _ => exec_start_of_no_block hi, fun _ => exec_start_of_loaded hi, fun s _ herr hcode => ?_⟩
  obtain ⟨hl, hr⟩ := initialPermutation_standard_block
  have hrun := run_after_loads hi 0x133457799BBCDFF1 0x0123456789ABCDEF herr hcode
  rwa [hl, hr, runOut_standard_vector] at hrun

/-- Settles O21: as ENC, with the other direction; the run on the standard pair's ciphertext undoes the encryption. -/
theorem decStartsADecryptRun : Obligations.DecStartsADecryptRun := by
  have hi : (Instr.dec, Dir.decrypt) ∈ [(Instr.enc, Dir.encrypt), (Instr.dec, Dir.decrypt)] := by simp
  refine ⟨decode_commandWord_opcode (i := .dec) (by decide) (by decide), rfl, fun _ => exec_start_of_no_key hi,
    fun _ => exec_start_of_no_block hi, fun _ => exec_start_of_loaded hi, fun s _ herr hcode => ?_⟩
  obtain ⟨a, b, c, ha, hb, hc, _, _, hrun⟩ := run_after_loads hi 0x133457799BBCDFF1 0x85E813540F0AB405 herr hcode
  rw [runOut_standard_vector_back] at hrun
  exact ⟨a, b, c, ha, hb, hc, hrun⟩

end Sys2Proof.Machine
end

section
/-! SUPPORT. Errors: the error effect, the commands that raise and their causes, the error flags at one edge, and
commands that do the same with any error standing (60_exceptions.md R220 to R222, R226, R227). -/

namespace Sys2Proof.Machine

/-- Settles O24: the two cases of the error effect. -/
theorem errorEffectKeepsTheFirstError : Obligations.ErrorEffectKeepsTheFirstError := fun code s =>
  ⟨raiseError_of_clear code s, raiseError_of_set code s⟩

/-! The causes of an error (R221, R222) -/

/-- In state s, command i is an error with code c. -/
def ErrorCause (i : Instr) (s : State) (c : ErrCode) : Prop :=
  (i ∈ [Instr.enc, Instr.dec] ∧ (c = .noKey ∧ s.keyv = false ∨ c = .noBlock ∧ s.keyv = true ∧ s.blkv = false)) ∨
  (6 ≤ (opcode i).toNat ∧ c = .illegalCmd)

/-- A command with a cause is that cause's error effect and nothing else. -/
theorem exec_of_errorCause {i : Instr} {s : State} {c : ErrCode} (h : ErrorCause i s c) :
    exec i s = .next (raiseError c s) := by
  rcases h with ⟨hi, hc⟩ | ⟨hop, rfl⟩
  · obtain ⟨d, hd⟩ := exists_start_direction hi
    rcases hc with ⟨rfl, hk⟩ | ⟨rfl, hk, hb⟩
    · exact exec_start_of_no_key hd hk
    · exact exec_start_of_no_block hd hk hb
  · rw [exec_eq, afterCommand_of_reserved hop]

/-- A command with a cause leaves ERR set, whether or not it was. -/
theorem exec_raises_of_errorCause {i : Instr} {s : State} (h : ∃ c, ErrorCause i s c) :
    ∃ t, exec i s = .next t ∧ t.err = true := by
  obtain ⟨c, hc⟩ := h
  exact ⟨_, exec_of_errorCause hc, raiseError_err c s⟩

theorem exists_errorCause_of_reserved {i : Instr} (s : State) (hop : 6 ≤ (opcode i).toNat) :
    ∃ c, ErrorCause i s c :=
  ⟨.illegalCmd, .inr ⟨hop, rfl⟩⟩

theorem exists_errorCause_of_not_loaded {i : Instr} {s : State} (hi : i ∈ [Instr.enc, Instr.dec])
    (h : s.keyv = false ∨ s.blkv = false) : ∃ c, ErrorCause i s c := by
  cases hk : s.keyv with
  | false => exact ⟨.noKey, .inl ⟨hi, .inl ⟨rfl, hk⟩⟩⟩
  | true => exact ⟨.noBlock, .inl ⟨hi, .inr ⟨rfl, hk, h.resolve_left (by simp [hk])⟩⟩⟩

/-- A start with a key and a block does not raise. -/
theorem not_loaded_of_startRun_raised {d : Dir} {s : State} (hs : s.err = false) (ht : (startRun d s).err = true) :
    s.keyv = false ∨ s.blkv = false := by
  rcases startRun_cases d s with ⟨hk, _⟩ | ⟨_, hb, _⟩ | ⟨_, _, hrun⟩
  · exact .inl hk
  · exact .inr hb
  · simp [hrun, hs] at ht

/-- A command that takes ERR from 0 to 1 has a cause: NOP, LDKEY, LDBLK and CLRERR never do. -/
theorem exists_errorCause_of_raised {i : Instr} {s : State} (hs : s.err = false)
    (ht : (afterCommand i s).err = true) : ∃ c, ErrorCause i s c := by
  cases i with
  | nop | ldkey _ | ldblk _ | clrerr => simp [afterCommand, hs] at ht
  | enc | dec => exact exists_errorCause_of_not_loaded (by simp) (not_loaded_of_startRun_raised hs ht)
  | _ => exact exists_errorCause_of_reserved s (by decide)

/-! ERR and ERRCODE at one edge -/

/-- An edge without a command keeps the error or, in reset, clears it. -/
theorem edge_error_cases {p : PortIn} {s t : State} (h : edge p s = .next t) :
    (p.rst = false ∧ t.err = s.err ∧ t.errCode = s.errCode) ∨
    (p.rst = true ∧ t.err = false ∧ t.errCode = .none) ∨
    ∃ i, arbitrate p s.busy = .accept i ∧ t = afterCommand i s := by
  rcases edge_next h with
    ⟨hr, rfl⟩ | ⟨hr, _, i, _, rfl⟩ | ⟨hr, _, _, rfl⟩ | ⟨_, _, _, hacc, ht⟩ | ⟨hr, _, _, rfl⟩
  · exact .inr (.inl ⟨hr, rfl, rfl⟩)
  · exact .inl ⟨hr, rfl, rfl⟩
  · exact .inl ⟨hr, rfl, rfl⟩
  · exact .inr (.inr ⟨_, hacc, ht⟩)
  · exact .inl ⟨hr, rfl, rfl⟩

/-- Settles O25: an error has a cause, a cause is the error effect alone, and an edge without a command is no error. -/
theorem onlyStartsAndReservedOpsRaise : Obligations.OnlyStartsAndReservedOpsRaise := by
  refine ⟨fun i s t hexec hs ht => ?_, fun i s hop => exec_raises_of_errorCause (exists_errorCause_of_reserved s hop),
    fun i hi s hload => exec_raises_of_errorCause (exists_errorCause_of_not_loaded hi hload),
    fun p s t hedge hno => ?_⟩
  · obtain ⟨c, hc⟩ : ∃ c, ErrorCause i s c := by
      rw [exec_eq] at hexec
      cases hexec
      exact exists_errorCause_of_raised hs ht
    rw [exec_of_errorCause hc, raiseError_of_clear c s hs] at hexec
    cases hexec
    exact ⟨rfl, hc⟩
  · rcases edge_error_cases hedge with hkeep | hreset | ⟨i, hacc, _⟩
    · exact .inl hkeep
    · exact .inr hreset
    · exact absurd hacc (hno i)

/-! A standing error (R227) -/

theorem startRun_errCode_of_set (d : Dir) {s : State} (h : s.err = true) : (startRun d s).errCode = s.errCode :=
  startRun_keeps State.errCode (fun c => by rw [raiseError_of_set c s h]) rfl

/-- A second error does not change ERRCODE. -/
theorem afterCommand_errCode_of_set {i : Instr} (hi : i ≠ .clrerr) {s : State} (h : s.err = true) :
    (afterCommand i s).errCode = s.errCode := by
  cases i with
  | clrerr => exact absurd rfl hi
  | enc => exact startRun_errCode_of_set .encrypt h
  | dec => exact startRun_errCode_of_set .decrypt h
  | _ => simp [afterCommand, raiseError_errCode, h]

/-- The state with another ERR and ERRCODE. -/
def withError (e : Bool) (c : ErrCode) (s : State) : State := { s with err := e, errCode := c }

@[simp] theorem withError_withError (e e' : Bool) (c c' : ErrCode) (s : State) :
    withError e c (withError e' c' s) = withError e c s := rfl

/-- ERR and ERRCODE apart, the error effect changes nothing (R226). -/
@[simp] theorem withError_raiseError (e : Bool) (c code : ErrCode) (s : State) :
    withError e c (raiseError code s) = withError e c s := by
  cases h : s.err with
  | false => rw [raiseError_of_clear code s h]; rfl
  | true => rw [raiseError_of_set code s h]

section
variable (e e' : Bool) (c c' : ErrCode) (s : State)

/-- The check of a start does not read ERR or ERRCODE. -/
theorem withError_startRun_withError (d : Dir) :
    withError e c (startRun d (withError e' c' s)) = withError e c (startRun d s) := by
  rcases startRun_cases d s with ⟨hk, h⟩ | ⟨hk, hb, h⟩ | ⟨hk, hb, h⟩ <;> rw [h]
  · rw [startRun_of_no_key d (withError e' c' s) hk]
    simp
  · rw [startRun_of_no_block d (withError e' c' s) hk hb]
    simp
  · rw [startRun_of_loaded d (withError e' c' s) hk hb]
    rfl

/-- ERR and ERRCODE apart, a command's effect does not depend on them. -/
theorem withError_afterCommand_withError (i : Instr) :
    withError e c (afterCommand i (withError e' c' s)) = withError e c (afterCommand i s) := by
  cases i with
  | nop | ldkey _ | ldblk _ | clrerr => rfl
  | enc | dec => exact withError_startRun_withError e e' c c' s _
  | _ => simp [afterCommand]

end

/-- Settles O26: at an edge the error stays or the command is CLRERR, and no command's other effects read it. -/
theorem errorStaysUntilClearedAndBlocksNothing : Obligations.ErrorStaysUntilClearedAndBlocksNothing := by
  refine ⟨fun p s t hedge herr => ?_, fun i s t e c hexec => ?_⟩
  · rcases edge_error_cases hedge with ⟨_, hkeep, hcode⟩ | ⟨hr, _⟩ | ⟨i, hacc, rfl⟩
    · exact .inl ⟨hkeep.trans herr, hcode⟩
    · exact .inr (.inl hr)
    · by_cases hi : i = .clrerr
      · exact .inr (.inr (hi ▸ hacc))
      · exact .inl ⟨afterCommand_err_of_set hi herr, afterCommand_errCode_of_set hi herr⟩
  · rw [exec_eq] at hexec
    cases hexec
    exact ⟨_, exec_eq i (withError e c s), withError_afterCommand_withError _ e _ c s i⟩

end Sys2Proof.Machine
end

section
/-! SUPPORT. Reset: the edge with rst = 1, what the ports show after it, and consecutive edges of it
(70_reset_and_hazards.md R250 to R253). -/

namespace Sys2Proof.Machine

/-! The reset state (R251, R252) -/

theorem getElem_reset_trace (j : Fin 18) : State.reset.trace[j] = .empty :=
  Vector.getElem_replicate j.isLt

/-- The trace port reads NONE at every index, those past the buffer among them. -/
theorem traceAt_resetEdge (s : State) (j : BitVec 5) : traceAt (resetEdge s) j = .empty := by
  by_cases hj : j.toNat < 18
  · have hentry : traceAt (resetEdge s) j = (resetEdge s).trace[(⟨j.toNat, hj⟩ : Fin 18)] :=
      traceAt_of_entry (resetEdge s) rfl
    rw [hentry, resetEdge_trace, getElem_reset_trace]
  · exact traceAt_of_ge (resetEdge s) (Nat.le_of_not_lt hj)

theorem statusWord_resetEdge (s : State) : statusWord (resetEdge s) = 0 :=
  have hsame : statusWord (resetEdge s) = statusWord State.reset := rfl
  hsame.trans (by decide)

theorem cmdReady_resetEdge {q : PortIn} (s : State) (hq : q.rst = false) : cmdReady q (resetEdge s) = true :=
  (cmdReady_iff q (resetEdge s)).2 ⟨rfl, hq⟩

/-! Reset at an edge (R250) -/

theorem cmdReady_of_reset {p : PortIn} (s : State) (hr : p.rst = true) : cmdReady p s = false := by
  simp [cmdReady, hr]

theorem arbitrate_of_reset_ne_accept {p : PortIn} (b : Bool) (hr : p.rst = true) (i : Instr) :
    arbitrate p b ≠ .accept i := fun hacc => by
  obtain ⟨hno, _⟩ := arbitrate_accept hacc
  simp [hr] at hno

/-! Consecutive edges of reset (R253) -/

theorem resetEdge_resetEdge (s : State) : resetEdge (resetEdge s) = resetEdge s := rfl

/-- The first edge resets, and each further one leaves what it finds. -/
theorem edges_of_reset {p : PortIn} {ps : List PortIn} (s : State) (hr : p.rst = true)
    (hps : ∀ q ∈ ps, q.rst = true) : edges (p :: ps) s = .next (resetEdge s) := by
  induction ps generalizing p s with
  | nil => rw [edges_singleton, edge_of_reset s hr]
  | cons q qs ih =>
    obtain ⟨hq, hqs⟩ := List.forall_mem_cons.1 hps
    have hrest : edges (q :: qs) (resetEdge s) = .next (resetEdge s) := by
      rw [ih (resetEdge s) hq hqs, resetEdge_resetEdge]
    rwa [edges, edge_of_reset s hr]

/-- Settles O14: every edge with rst = 1 is `resetEdge`, which is idempotent. -/
theorem heldResetIsOneReset : Obligations.HeldResetIsOneReset := fun _ _ s hr hps =>
  ⟨resetEdge s, edge_of_reset s hr, edges_of_reset s hr hps⟩

/-- Settles O12: rst = 1 comes before every other case of the arbitration, and the edge is `resetEdge`, which takes
each element from the reset state. -/
theorem resetTakesEveryElementToItsResetValue : Obligations.ResetTakesEveryElementToItsResetValue := fun _ s hr =>
  ⟨cmdReady_of_reset s hr, arbitrate_of_reset_ne_accept s.busy hr, resetEdge s, edge_of_reset s hr,
    rfl, rfl, rfl, rfl, rfl, rfl, rfl, rfl, rfl, getElem_reset_trace, rfl⟩

/-- Settles O15: the ports show the reset state, and an idle edge keeps it. -/
theorem machineIsIdleAfterReset : Obligations.MachineIsIdleAfterReset := by
  intro p q s hr hq
  refine ⟨resetEdge s, edge_of_reset s hr, ?_, fun hv => edge_of_quiet hq rfl hv⟩
  rw [outputs, traceAt_resetEdge, cmdReady_resetEdge s hq, statusWord_resetEdge]
  rfl

end Sys2Proof.Machine
end

section
/-! SUPPORT. The step of both agents, and an edge by its case (10_state.md R20, R27, 44_commands.md R190). -/

namespace Sys2Proof.Machine

/-! One edge -/

/-- STAGE names no stage, a round, or the final permutation. -/
theorem stage_cases (n : Fin 18) : n.val = 0 ∨ (∃ i : Fin 16, n.val = i.val + 1) ∨ n.val = 17 := by
  rcases Nat.eq_zero_or_pos n.val with h0 | hpos
  · exact .inl h0
  rcases Nat.lt_or_ge n.val 17 with hlt | hge
  · exact .inr (.inl ⟨⟨n.val - 1, by omega⟩, (Nat.sub_add_cancel hpos).symm⟩)
  · exact .inr (.inr (by omega))

theorem edge_of_busy {p : PortIn} {s : State} (hr : p.rst = false) (hb : s.busy = true) :
    edge p s = performStage s := by
  rw [edge, hb, arbitrate_of_busy hr]

theorem edge_of_accept {p : PortIn} {s : State} {i : Instr} (h : arbitrate p s.busy = .accept i) :
    edge p s = .next (afterCommand i s) := by
  rw [edge, h]
  exact exec_eq i s

/-- An edge stops only where R190 gives a busy step no stage. -/
theorem exists_edge_next {s : State} (h : s.busy = true → s.stage.val ≠ 0) (p : PortIn) :
    ∃ t, edge p s = .next t := by
  rcases arbitrate_cases p s.busy with ⟨hr, _⟩ | ⟨hr, hb, _⟩ | ⟨_, _, _, hacc⟩ | ⟨hr, hb, hv, _⟩
  · exact ⟨_, edge_of_reset s hr⟩
  · rcases stage_cases s.stage with h0 | ⟨i, hi⟩ | h17
    · exact absurd h0 (h hb)
    · exact ⟨_, edge_of_round hr hb hi⟩
    · exact ⟨_, edge_of_final hr hb h17⟩
  · exact ⟨_, edge_of_accept hacc⟩
  · exact ⟨_, edge_of_quiet hr hb hv⟩

/-- Settles O9: a busy edge without reset is the stage, and STAGE = 0 names none. -/
theorem busyWithoutStageStops : Obligations.BusyWithoutStageStops := fun _ s hr hb h0 =>
  (edge_of_busy hr hb).trans (performStage_zero s (congrArg Fin.val h0))

/-- Settles O13: the edge is `resetEdge`, which leaves the reset state's elements. -/
theorem resetLeavesChosenZeros : Obligations.ResetLeavesChosenZeros := fun _ s hr =>
  ⟨resetEdge s, edge_of_reset s hr, rfl, rfl, fun i => Vector.getElem_replicate i.isLt, rfl, rfl, rfl⟩

/-! One command -/

/-- ENC and DEC begin a run where a key and a block are loaded. -/
theorem afterCommand_of_start {i : Instr} {s : State} (hi : i ∈ [Instr.enc, Instr.dec]) (hk : s.keyv = true)
    (hb : s.blkv = true) : ∃ d, afterCommand i s = beginRun d s := by
  obtain ⟨d, hd⟩ := exists_start_direction hi
  exact ⟨d, by simpa [exec_eq] using exec_start_of_loaded hd hk hb⟩

/-- A command begins a run, or it leaves all that the machine shows of the last one. -/
theorem afterCommand_begins_or_keeps_run (i : Instr) (s : State) :
    (i ∈ [Instr.enc, Instr.dec] ∧ s.keyv = true ∧ s.blkv = true ∧ ∃ d, afterCommand i s = beginRun d s) ∨
    ((afterCommand i s).busy = s.busy ∧ (afterCommand i s).done = s.done ∧ (afterCommand i s).dir = s.dir ∧
      (afterCommand i s).trace = s.trace) := by
  by_cases hstart : i ∈ [Instr.enc, Instr.dec] ∧ s.keyv = true ∧ s.blkv = true
  · obtain ⟨hi, hk, hb⟩ := hstart
    exact .inl ⟨hi, hk, hb, afterCommand_of_start hi hk hb⟩
  · have hno : i ∉ [Instr.enc, Instr.dec] ∨ s.keyv = false ∨ s.blkv = false := by
      simpa only [not_and_or, Bool.not_eq_true] using hstart
    obtain ⟨_, hbusy, hdone, hdir, _, _, htrace⟩ := afterCommand_run_elements hno
    exact .inr ⟨hbusy, hdone, hdir, htrace⟩

/-! The step: what the host drives, then the edge -/

theorem step_of_hostDrive {s : State} {p : PortIn} {rest : List HostAction}
    (h : hostDrive s.busy s.host = (p, rest)) : step s = edge p { s with host := rest } := by
  rw [step, h]

/-- What the host's next script and every edge keep, every step keeps. -/
theorem step_keeps {P : State → Prop} (hhost : ∀ s rest, P s → P { s with host := rest })
    (hedge : ∀ p s t, P s → edge p s = .next t → P t) {s t : State} (hs : P s) (h : step s = .next t) : P t :=
  hedge _ _ t (hhost s _ hs) h

end Sys2Proof.Machine
end

section
/-! SUPPORT. The legal states: each shared operation keeps them, so every step does (10_state.md R27 to R34). -/

namespace Sys2Proof.Machine

/-! Writing one entry of the trace -/

theorem getElem_set_trace (buf : Vector TraceEntry 18) (k j : Fin 18) (e : TraceEntry) :
    (buf.set k.val e)[j] = if k = j then e else buf[j] := by
  simp [Vector.getElem_set, Fin.ext_iff]

theorem entryOk_set {buf : Vector TraceEntry 18} (h : ∀ j : Fin 18, entryOk j buf[j]) {k : Fin 18}
    {e : TraceEntry} (he : entryOk k e) (j : Fin 18) : entryOk j (buf.set k.val e)[j] := by
  rw [getElem_set_trace]
  split
  case isTrue hkj => exact hkj ▸ he
  case isFalse => exact h j

/-- Where exactly the entries before k are written, writing entry k moves the bound by one. -/
theorem set_eq_empty_iff {buf : Vector TraceEntry 18} {k : Fin 18}
    (h : ∀ j : Fin 18, buf[j] = .empty ↔ k.val ≤ j.val) {e : TraceEntry} (he : e ≠ .empty) (j : Fin 18) :
    (buf.set k.val e)[j] = .empty ↔ k.val + 1 ≤ j.val := by
  rw [getElem_set_trace]
  split
  case isTrue hkj => simp [he, hkj]
  case isFalse hkj =>
    have hne : k.val ≠ j.val := fun heq => hkj (Fin.ext heq)
    rw [h j]
    omega

theorem entryOk_ofInit (l r : Half) : entryOk 0 (.ofInit l r) := by
  simp [entryOk, TraceEntry.ofInit, stageKind]

theorem entryOk_ofRound (i : Fin 16) (l r : Half) (k : Subkey) (fo : Half) :
    entryOk i.castSucc.succ (.ofRound (BitVec.ofNat 5 (i.val + 1)) l r k fo) := by
  have hle : i.val + 1 ≤ 16 := i.isLt
  simp [entryOk, TraceEntry.ofRound, stageKind, hle]

theorem entryOk_ofFinal (out : Block) : entryOk 17 (.ofFinal out) := by
  simp [entryOk, TraceEntry.ofFinal, stageKind]

theorem getElem_replicate_empty (j : Fin 18) : (Vector.replicate 18 TraceEntry.empty)[j] = .empty :=
  Vector.getElem_replicate j.isLt

/-! The operations -/

theorem reset_inv : State.reset.Inv where
  stage_zero := by decide
  not_busy_done := by decide
  err_code := by decide
  subkeys := by decide
  loaded := by decide
  entries j := .inl (getElem_reset_trace j)
  progress := by decide
  complete := by decide
  fresh _ _ := ⟨getElem_reset_trace, rfl⟩

section
variable {s : State} (hs : s.Inv)
include hs

/-- The host's script is no element of DESCORE. -/
theorem withHost_inv (rest : List HostAction) : State.Inv { s with host := rest } := { hs with }

theorem clearError_inv : (clearError s).Inv := { hs with err_code := iff_of_true rfl rfl }

theorem raiseError_inv {c : ErrCode} (hc : c ≠ .none) : (raiseError c s).Inv := by
  cases herr : s.err with
  | true => rwa [raiseError_of_set c s herr]
  | false =>
    rw [raiseError_of_clear c s herr]
    exact { hs with err_code := by simp [hc] }

theorem loadKey_inv (key : Block) : (afterCommand (.ldkey key) s).Inv :=
  { hs with
    subkeys := fun _ => rfl
    loaded := fun hb => ⟨rfl, (hs.loaded hb).2⟩ }

theorem loadBlock_inv (blk : Block) : (afterCommand (.ldblk blk) s).Inv :=
  { hs with loaded := fun hb => ⟨(hs.loaded hb).1, rfl⟩ }

/-- A start leaves INIT alone in the trace. -/
theorem beginRun_inv (hk : s.keyv = true) (hb : s.blkv = true) (d : Dir) : (beginRun d s).Inv where
  stage_zero := by simp
  not_busy_done := by simp
  err_code := hs.err_code
  subkeys := hs.subkeys
  loaded _ := ⟨hk, hb⟩
  entries := entryOk_set (k := 0) (fun j => .inl (getElem_replicate_empty j)) (entryOk_ofInit _ _)
  progress _ := set_eq_empty_iff (k := 0) (fun j => iff_of_true (getElem_replicate_empty j) (Nat.zero_le _))
    (by simp [TraceEntry.ofInit, TraceEntry.empty])
  complete := by simp
  fresh := by simp

/-- A round writes its entry and moves STAGE past it. -/
theorem roundStage_inv (hb : s.busy = true) {i : Fin 16} (hi : s.stage.val = i.val + 1) :
    (roundStage i s).Inv :=
  { hs with
    stage_zero := iff_of_false (fun h0 => Nat.succ_ne_zero _ (congrArg Fin.val h0)) (by simp [hb])
    entries := entryOk_set (k := i.castSucc.succ) hs.entries (entryOk_ofRound i _ _ _ _)
    progress := fun _ => set_eq_empty_iff (k := i.castSucc.succ) (fun j => by rw [hs.progress hb j, hi]; rfl)
      (by simp [TraceEntry.ofRound, TraceEntry.empty])
    complete := fun hd => absurd ⟨hb, hd⟩ hs.not_busy_done
    fresh := fun hidle => by simp [hb] at hidle }

/-- The FP stage writes the one entry that is missing, which shows DOUT. -/
theorem fpStage_inv (hb : s.busy = true) (h17 : s.stage.val = 17) : (fpStage s).Inv :=
  { hs with
    stage_zero := iff_of_true rfl rfl
    not_busy_done := by simp
    loaded := by simp
    entries := entryOk_set (k := 17) hs.entries (entryOk_ofFinal _)
    progress := by simp
    complete := fun _ => by
      have hwritten := set_eq_empty_iff (k := 17) (fun j => by rw [hs.progress hb j, h17]; rfl)
        (e := .ofFinal (fpStage s).dout) (by simp [TraceEntry.ofFinal, TraceEntry.empty])
      exact ⟨fun j hj => absurd ((hwritten j).1 hj) (Nat.not_le.2 (by simp)), by simp⟩
    fresh := by simp }

theorem startRun_inv (d : Dir) : (startRun d s).Inv := by
  rcases startRun_cases d s with ⟨_, h⟩ | ⟨_, _, h⟩ | ⟨hk, hb, h⟩ <;> rw [h]
  · exact raiseError_inv hs (by decide)
  · exact raiseError_inv hs (by decide)
  · exact beginRun_inv hs hk hb d

theorem afterCommand_inv (i : Instr) : (afterCommand i s).Inv := by
  cases i with
  | nop => exact hs
  | ldkey key => exact loadKey_inv hs key
  | ldblk blk => exact loadBlock_inv hs blk
  | clrerr => exact clearError_inv hs
  | enc => exact startRun_inv hs .encrypt
  | dec => exact startRun_inv hs .decrypt
  | _ => exact raiseError_inv hs (by decide)

theorem edge_inv {p : PortIn} {t : State} (h : edge p s = .next t) : t.Inv := by
  rcases edge_next h with
    ⟨_, rfl⟩ | ⟨_, hb, i, hi, rfl⟩ | ⟨_, hb, h17, rfl⟩ | ⟨_, _, _, _, rfl⟩ | ⟨_, _, _, rfl⟩
  · exact withHost_inv reset_inv s.host
  · exact roundStage_inv hs hb hi
  · exact fpStage_inv hs hb h17
  · exact afterCommand_inv hs _
  · exact hs

/-- In a legal state a run in progress has a stage to perform. -/
theorem exists_edge_next_of_inv (p : PortIn) : ∃ t, edge p s = .next t :=
  exists_edge_next (fun hb => Nat.ne_of_gt (hs.stage_val_of_busy hb).1) p

end

/-- Settles O53: the host's script is no part of a legal state, and every case of an edge keeps them. -/
theorem stepKeepsLegalStates : Obligations.StepKeepsLegalStates := fun _ _ hs h =>
  step_keeps (P := State.Inv) (fun _ rest hs => withHost_inv hs rest) (fun _ _ _ hs => edge_inv hs) hs h

/-- Settles O54: no edge of a legal state stops, whatever the host drives. -/
theorem legalStatesNeverStop : Obligations.LegalStatesNeverStop := fun _ hs =>
  exists_edge_next_of_inv (withHost_inv hs _) _

end Sys2Proof.Machine
end

section
/-! SUPPORT. What the machine shows of RUN: in a run a legal state is one of the run's closed forms, so each stage
leads to the next (43_cipher_engine.md R168). -/

namespace Sys2Proof.Machine

/-! The closed forms, and what they show -/

/-- The trace clause of `State.HoldsRun`, said of the whole buffer. -/
theorem written_iff_eq_runTraceBelow {buf : Vector TraceEntry 18} {blk key : Block} {d : Dir} {m : Nat} :
    (∀ j : Fin 18, (j.val < m → buf[j] = runEntry blk key d j) ∧ (m ≤ j.val → buf[j] = .empty)) ↔
      buf = runTraceBelow blk key d m := by
  constructor
  · intro h
    apply Vector.ext
    intro j hj
    rw [getElem_runTraceBelow]
    split
    case isTrue hlt => exact (h ⟨j, hj⟩).1 hlt
    case isFalse hge => exact (h ⟨j, hj⟩).2 (Nat.not_lt.1 hge)
  · rintro rfl j
    exact ⟨fun hlt => (getElem_runTraceBelow _ _ _ _ j.isLt).trans (if_pos hlt),
      fun hge => (getElem_runTraceBelow _ _ _ _ j.isLt).trans (if_neg (Nat.not_lt.2 hge))⟩

theorem holdsRun_afterRounds (d : Dir) (s : State) (n : Nat) (h : n ≤ 16) : (afterRounds d s n h).HoldsRun where
  pair _ _ := rfl
  written _ := written_iff_eq_runTraceBelow.2 rfl
  result hdone := by cases hdone

/-- The last round's closed form ends in RUN's result and trace. -/
theorem holdsRun_fpStage_afterRounds (d : Dir) (s : State) :
    (fpStage (afterRounds d s 16 (Nat.le_refl 16))).HoldsRun where
  pair hb := by cases hb
  written hb := by cases hb
  result _ := ⟨s.blk, s.key, Prod.ext rfl (fpStage_afterRounds_trace d s)⟩

/-- With no run in progress, DONE, DIR, DOUT and TRACE are all that is shown. -/
theorem holdsRun_of_idle {s t : State} (hs : s.HoldsRun) (hb : t.busy = false) (hdone : t.done = s.done)
    (hdir : t.dir = s.dir) (hdout : t.dout = s.dout) (htrace : t.trace = s.trace) : t.HoldsRun where
  pair h := by simp [hb] at h
  written h := by simp [hb] at h
  result h := by
    rw [hdout, htrace, hdir]
    exact hs.result (hdone ▸ h)

theorem reset_holdsRun : State.reset.HoldsRun where
  pair hb := by cases hb
  written hb := by cases hb
  result hdone := by cases hdone

/-! The operations -/

theorem withHost_holdsRun {s : State} (hs : s.HoldsRun) (rest : List HostAction) :
    State.HoldsRun { s with host := rest } := { hs with }

/-- A legal state in a run is the closed form of its own run after the rounds that STAGE has passed. -/
theorem eq_afterRounds_of_busy {s : State} (hs : s.Inv) (hrun : s.HoldsRun) (hb : s.busy = true) {n : Nat}
    (h : n ≤ 16) (hn : s.stage.val = n + 1) : s = afterRounds s.dir s n h := by
  have hpair : (s.l, s.r) = runPair s.blk s.key s.dir n h := by
    have := hrun.pair hb (by omega)
    simpa only [hn, Nat.add_sub_cancel] using this
  have htrace : s.trace = runTraceBelow s.blk s.key s.dir (n + 1) :=
    written_iff_eq_runTraceBelow.1 (hn ▸ hrun.written hb)
  have hdone : s.done = false := Bool.eq_false_iff.2 fun hd => hs.not_busy_done ⟨hb, hd⟩
  have hstage : s.stage = ⟨n + 1, by omega⟩ := Fin.ext hn
  rw [afterRounds, beginRun, ← hpair, ← htrace, ← hstage, ← hdone, ← hb]
  rfl

theorem roundStage_holdsRun {s : State} (hs : s.Inv) (hrun : s.HoldsRun) (hb : s.busy = true) {i : Fin 16}
    (hi : s.stage.val = i.val + 1) : (roundStage i s).HoldsRun := by
  rw [eq_afterRounds_of_busy hs hrun hb (Nat.le_of_lt i.isLt) hi,
    roundStage_afterRounds (hs.subkeys (hs.loaded hb).1) s.dir i.val i.isLt]
  exact holdsRun_afterRounds _ _ _ _

theorem fpStage_holdsRun {s : State} (hs : s.Inv) (hrun : s.HoldsRun) (hb : s.busy = true)
    (h17 : s.stage.val = 17) : (fpStage s).HoldsRun := by
  rw [eq_afterRounds_of_busy hs hrun hb (Nat.le_refl 16) h17]
  exact holdsRun_fpStage_afterRounds _ _

theorem beginRun_holdsRun (d : Dir) (s : State) : (beginRun d s).HoldsRun :=
  afterRounds_zero d s ▸ holdsRun_afterRounds d s 0 (Nat.zero_le 16)

theorem afterCommand_holdsRun {s : State} (hrun : s.HoldsRun) (hidle : s.busy = false) (i : Instr) :
    (afterCommand i s).HoldsRun := by
  rcases afterCommand_begins_or_keeps_run i s with ⟨_, _, _, d, hd⟩ | ⟨hbusy, hdone, hdir, htrace⟩
  · exact hd ▸ beginRun_holdsRun d s
  · exact holdsRun_of_idle hrun (hbusy.trans hidle) hdone hdir (afterCommand_dout i s) htrace

theorem edge_holdsRun {p : PortIn} {s t : State} (hs : s.Inv) (hrun : s.HoldsRun) (h : edge p s = .next t) :
    t.HoldsRun := by
  rcases edge_next h with
    ⟨_, rfl⟩ | ⟨_, hb, i, hi, rfl⟩ | ⟨_, hb, h17, rfl⟩ | ⟨_, hidle, _, _, rfl⟩ | ⟨_, _, _, rfl⟩
  · exact withHost_holdsRun reset_holdsRun s.host
  · exact roundStage_holdsRun hs hrun hb hi
  · exact fpStage_holdsRun hs hrun hb h17
  · exact afterCommand_holdsRun hrun hidle _
  · exact hrun

/-- Settles O55: legality and what is shown of the run are kept together, by the host's script and by every case of an
edge. -/
theorem stepKeepsWhatTheMachineShowsOfTheRun : Obligations.StepKeepsWhatTheMachineShowsOfTheRun := by
  intro s t hs hrun h
  have hboth : t.Inv ∧ t.HoldsRun :=
    step_keeps (P := fun u => u.Inv ∧ u.HoldsRun)
      (fun _ rest ⟨hu, hr⟩ => ⟨withHost_inv hu rest, withHost_holdsRun hr rest⟩)
      (fun _ _ _ ⟨hu, hr⟩ hedge => ⟨edge_inv hu hedge, edge_holdsRun hu hr hedge⟩) ⟨hs, hrun⟩ h
  exact hboth.2

/-- Settles O52: both invariants hold at reset, where nothing was written. -/
theorem resetStateIsLegal : Obligations.ResetStateIsLegal := ⟨reset_inv, reset_holdsRun⟩

end Sys2Proof.Machine
end

section
/-! SUPPORT. Two states that differ only where the spec gives an element no value: every operation keeps them so
(10_state.md R24 to R26, R38). -/

namespace Sys2Proof.Machine

/-- The state with other values in the elements that the spec gives no reset value. -/
def withUnloaded (s : State) (key : Block) (sk : Vector Subkey 16) (blk : Block) (l r : Half) : State :=
  { s with key := key, sk := sk, blk := blk, l := l, r := r }

/-- The second state is the first with other values there, and where they can be read they are the same. -/
theorem sameButUnloaded_iff {s t : State} :
    SameButUnloaded s t ↔ ∃ key sk blk l r, t = withUnloaded s key sk blk l r ∧
      (s.keyv = true → s.key = key) ∧ (s.keyv = true ∨ s.busy = true → s.sk = sk) ∧
      (s.blkv = true → s.blk = blk) ∧ (s.busy = true → s.l = l) ∧ (s.busy = true → s.r = r) := by
  constructor
  · rintro ⟨hkey, hsk, hblk, hl, hr, hrest⟩
    exact ⟨t.key, t.sk, t.blk, t.l, t.r, hrest.symm, hkey, hsk, hblk, hl, hr⟩
  · rintro ⟨key, sk, blk, l, r, rfl, hkey, hsk, hblk, hl, hr⟩
    exact ⟨hkey, hsk, hblk, hl, hr, rfl⟩

theorem sameButUnloaded_refl (s : State) : SameButUnloaded s s :=
  ⟨fun _ => rfl, fun _ => rfl, fun _ => rfl, fun _ => rfl, fun _ => rfl, rfl⟩

section
variable {s t : State} (h : SameButUnloaded s t)
include h

theorem SameButUnloaded.busy_eq : s.busy = t.busy := by rw [← h.rest]

theorem SameButUnloaded.stage_eq : s.stage = t.stage := by rw [← h.rest]

theorem SameButUnloaded.host_eq : s.host = t.host := by rw [← h.rest]

/-- No output port shows one of those elements (R37). -/
theorem SameButUnloaded.outputs_eq (p : PortIn) : outputs p s = outputs p t := by
  rw [← h.rest]
  rfl

theorem SameButUnloaded.withHost (rest : List HostAction) :
    SameButUnloaded { s with host := rest } { t with host := rest } := by
  obtain ⟨key, sk, blk, l, r, rfl, hvals⟩ := sameButUnloaded_iff.1 h
  exact sameButUnloaded_iff.2 ⟨key, sk, blk, l, r, rfl, hvals⟩

theorem SameButUnloaded.resetEdge : SameButUnloaded (resetEdge s) (resetEdge t) := by
  have hsame : Machine.resetEdge s = Machine.resetEdge t := by rw [Machine.resetEdge, h.host_eq, Machine.resetEdge]
  exact hsame ▸ sameButUnloaded_refl _

/-- A round reads SK, L and R, which agree in a run. -/
theorem SameButUnloaded.roundStage (hb : s.busy = true) (i : Fin 16) :
    SameButUnloaded (roundStage i s) (roundStage i t) := by
  obtain ⟨key, sk, blk, l, r, rfl, hkey, hsk, hblk, hl, hr⟩ := sameButUnloaded_iff.1 h
  obtain rfl := hsk (.inr hb)
  obtain rfl := hl hb
  obtain rfl := hr hb
  exact ⟨hkey, fun _ => rfl, hblk, fun _ => rfl, fun _ => rfl, rfl⟩

/-- The FP stage reads L and R, which agree in the run that it ends. -/
theorem SameButUnloaded.fpStage (hb : s.busy = true) : SameButUnloaded (fpStage s) (fpStage t) := by
  obtain ⟨key, sk, blk, l, r, rfl, hkey, hsk, hblk, hl, hr⟩ := sameButUnloaded_iff.1 h
  obtain rfl := hl hb
  obtain rfl := hr hb
  exact ⟨hkey, fun _ => hsk (.inr hb), hblk, fun _ => rfl, fun _ => rfl, rfl⟩

theorem SameButUnloaded.raiseError (c : ErrCode) : SameButUnloaded (raiseError c s) (raiseError c t) := by
  obtain ⟨key, sk, blk, l, r, rfl, hvals⟩ := sameButUnloaded_iff.1 h
  cases herr : s.err with
  | false =>
    rw [raiseError_of_clear c s herr, raiseError_of_clear c (withUnloaded s key sk blk l r) herr]
    exact sameButUnloaded_iff.2 ⟨key, sk, blk, l, r, rfl, hvals⟩
  | true => rwa [raiseError_of_set c s herr, raiseError_of_set c (withUnloaded s key sk blk l r) herr]

theorem SameButUnloaded.clearError : SameButUnloaded (clearError s) (clearError t) := by
  obtain ⟨key, sk, blk, l, r, rfl, hvals⟩ := sameButUnloaded_iff.1 h
  exact sameButUnloaded_iff.2 ⟨key, sk, blk, l, r, rfl, hvals⟩

/-- LDKEY gives KEY and SK one value in both. -/
theorem SameButUnloaded.loadKey (key : Block) :
    SameButUnloaded (afterCommand (.ldkey key) s) (afterCommand (.ldkey key) t) := by
  obtain ⟨_, _, blk, l, r, rfl, _, _, hblk, hl, hr⟩ := sameButUnloaded_iff.1 h
  exact ⟨fun _ => rfl, fun _ => rfl, hblk, hl, hr, rfl⟩

/-- LDBLK gives BLK one value in both. -/
theorem SameButUnloaded.loadBlock (blk : Block) :
    SameButUnloaded (afterCommand (.ldblk blk) s) (afterCommand (.ldblk blk) t) := by
  obtain ⟨key, sk, _, l, r, rfl, hkey, hsk, _, hl, hr⟩ := sameButUnloaded_iff.1 h
  exact ⟨hkey, hsk, fun _ => rfl, hl, hr, rfl⟩

/-- A start that runs reads BLK, which is loaded, and gives L and R one value in both. -/
theorem SameButUnloaded.beginRun (hk : s.keyv = true) (hb : s.blkv = true) (d : Dir) :
    SameButUnloaded (beginRun d s) (beginRun d t) := by
  obtain ⟨key, sk, blk, l, r, rfl, hkey, hsk, hblk, _, _⟩ := sameButUnloaded_iff.1 h
  obtain rfl := hblk hb
  exact ⟨hkey, fun _ => hsk (.inl hk), fun _ => rfl, fun _ => rfl, fun _ => rfl, rfl⟩

/-- The check of a start reads KEYV and BLKV alone. -/
theorem SameButUnloaded.startRun (d : Dir) : SameButUnloaded (startRun d s) (startRun d t) := by
  have hkeyv : s.keyv = t.keyv := by rw [← h.rest]
  have hblkv : s.blkv = t.blkv := by rw [← h.rest]
  rcases startRun_cases d s with ⟨hk, hs⟩ | ⟨hk, hb, hs⟩ | ⟨hk, hb, hs⟩ <;> rw [hs]
  · rw [startRun_of_no_key d t (hkeyv ▸ hk)]
    exact h.raiseError .noKey
  · rw [startRun_of_no_block d t (hkeyv ▸ hk) (hblkv ▸ hb)]
    exact h.raiseError .noBlock
  · rw [startRun_of_loaded d t (hkeyv ▸ hk) (hblkv ▸ hb)]
    exact h.beginRun hk hb d

theorem SameButUnloaded.afterCommand (i : Instr) : SameButUnloaded (afterCommand i s) (afterCommand i t) := by
  cases i with
  | nop => exact h
  | ldkey key => exact h.loadKey key
  | ldblk blk => exact h.loadBlock blk
  | clrerr => exact h.clearError
  | enc => exact h.startRun .encrypt
  | dec => exact h.startRun .decrypt
  | _ => exact h.raiseError .illegalCmd

/-- One edge from both: two such states again, or one fault. -/
theorem SameButUnloaded.edge (p : PortIn) :
    (∃ s' t', edge p s = .next s' ∧ edge p t = .next t' ∧ SameButUnloaded s' t') ∨
    (∃ e, edge p s = .fault e ∧ edge p t = .fault e) := by
  rcases arbitrate_cases p s.busy with ⟨hr, _⟩ | ⟨hr, hb, _⟩ | ⟨_, _, _, hacc⟩ | ⟨hr, hb, hv, _⟩
  · exact .inl ⟨_, _, edge_of_reset s hr, edge_of_reset t hr, h.resetEdge⟩
  · have hbt : t.busy = true := h.busy_eq ▸ hb
    rcases stage_cases s.stage with h0 | ⟨i, hi⟩ | h17
    · exact .inr ⟨_, (edge_of_busy hr hb).trans (performStage_zero s h0),
        (edge_of_busy hr hbt).trans (performStage_zero t (h.stage_eq ▸ h0))⟩
    · exact .inl ⟨_, _, edge_of_round hr hb hi, edge_of_round hr hbt (h.stage_eq ▸ hi), h.roundStage hb i⟩
    · exact .inl ⟨_, _, edge_of_final hr hb h17, edge_of_final hr hbt (h.stage_eq ▸ h17), h.fpStage hb⟩
  · exact .inl ⟨_, _, edge_of_accept hacc, edge_of_accept (h.busy_eq ▸ hacc), h.afterCommand _⟩
  · exact .inl ⟨_, _, edge_of_quiet hr hb hv, edge_of_quiet hr (h.busy_eq ▸ hb) hv, h⟩

end

/-- Settles O56: no output reads those elements, the host drives both machines alike, and so does every case of an
edge. -/
theorem unloadedValuesAreNeverObserved : Obligations.UnloadedValuesAreNeverObserved := by
  intro s t h
  refine ⟨h.outputs_eq, ?_⟩
  have hdrive : hostDrive t.busy t.host = hostDrive s.busy s.host := by rw [h.busy_eq, h.host_eq]
  rw [step_of_hostDrive (s := s) rfl, step_of_hostDrive hdrive]
  exact (h.withHost _).edge _

end Sys2Proof.Machine
end

section
/-! SUPPORT. The command words of the opcode map, there and back (30_encoding.md R71, R73). -/

namespace Sys2Proof.Machine

/-- The canonical fields of a command select it: by its op alone, or with its operand. -/
theorem decodeFields_canonical (i : Instr) : decodeFields (opcode i) (canonicalData i) = i := by
  cases i with
  | ldkey key => exact (Laws.EncodedWord.ldkey key).2.2
  | ldblk blk => exact (Laws.EncodedWord.ldblk blk).2.2
  | _ => rfl

/-- Settles O1: the decoder reads the two fields that the canonical word was built from. -/
theorem encodeThenDecodeReturnsCommand : Obligations.EncodeThenDecodeReturnsCommand := fun i _ => by
  rw [encode, decode_commandWord, decodeFields_canonical]

/-- Settles O5: the decoder computes on each word. -/
theorem sampleCommandWordsDecode : Obligations.SampleCommandWordsDecode := by
  unfold Obligations.SampleCommandWordsDecode
  decide

end Sys2Proof.Machine
end

section
/-! SUPPORT. The flags and the result at one edge: what writes them, and that nothing else does (10_state.md R30 to
R32). -/

namespace Sys2Proof.Machine

/-! BUSY and DONE (R32) -/

/-- The edge accepts a start command. -/
def AcceptsStart (p : PortIn) (s : State) : Prop :=
  arbitrate p s.busy = .accept .enc ∨ arbitrate p s.busy = .accept .dec

theorem acceptsStart_iff {p : PortIn} {s : State} :
    AcceptsStart p s ↔ ∃ i ∈ [Instr.enc, Instr.dec], arbitrate p s.busy = .accept i := by
  simp [AcceptsStart]

/-- An edge without reset starts a run, ends one, or leaves BUSY and DONE as they are. -/
theorem edge_busy_done_cases {p : PortIn} {s t : State} (h : edge p s = .next t) (hr : p.rst = false) :
    (t.busy = true ∧ t.done = false ∧ s.keyv = true ∧ s.blkv = true ∧ AcceptsStart p s) ∨
    (t.busy = false ∧ t.done = true ∧ s.busy = true ∧ s.stage.val = 17) ∨
    (t.busy = s.busy ∧ t.done = s.done) := by
  rcases edge_next h with
    ⟨hrst, _⟩ | ⟨_, _, i, _, rfl⟩ | ⟨_, hb, h17, rfl⟩ | ⟨_, _, _, hacc, rfl⟩ | ⟨_, _, _, rfl⟩
  · simp [hr] at hrst
  · exact .inr (.inr ⟨rfl, rfl⟩)
  · exact .inr (.inl ⟨rfl, rfl, hb, h17⟩)
  · rcases afterCommand_begins_or_keeps_run (decode (commandWord p.cmdOp p.cmdData)) s with
      ⟨hi, hk, hblk, d, hd⟩ | ⟨hbusy, hdone, _⟩
    · rw [hd]
      exact .inl ⟨rfl, rfl, hk, hblk, acceptsStart_iff.2 ⟨_, hi, hacc⟩⟩
    · exact .inr (.inr ⟨hbusy, hdone⟩)
  · exact .inr (.inr ⟨rfl, rfl⟩)

/-- An accepted start on a loaded key and block runs. -/
theorem edge_of_start {p : PortIn} {s : State} (hstart : AcceptsStart p s) (hk : s.keyv = true)
    (hb : s.blkv = true) : ∃ d, edge p s = .next (beginRun d s) := by
  obtain ⟨i, hi, hacc⟩ := acceptsStart_iff.1 hstart
  obtain ⟨d, hd⟩ := afterCommand_of_start hi hk hb
  exact ⟨d, hd ▸ edge_of_accept hacc⟩

theorem edge_of_stage {p : PortIn} {s : State} (h : arbitrate p s.busy = .stage) : edge p s = performStage s := by
  rw [edge, h]

/-! ERR and ERRCODE (R32, 60_exceptions.md R226, R227) -/

/-- The code that an error effect leaves is the one it would be raised with again. -/
theorem raiseError_raiseError_errCode (c : ErrCode) (s : State) :
    raiseError (raiseError c s).errCode s = raiseError c s := by
  cases h : s.err with
  | false => rw [raiseError_of_clear c s h, raiseError_of_clear c s h]
  | true => rw [raiseError_of_set c s h, raiseError_of_set _ s h]

/-- A command has an error's cause, clears the error, or leaves it as it is. -/
theorem afterCommand_raises_or_clears_or_keeps_error (i : Instr) (s : State) :
    (∃ c, ErrorCause i s c) ∨ i = .clrerr ∨
    ((afterCommand i s).err = s.err ∧ (afterCommand i s).errCode = s.errCode) := by
  cases i with
  | nop | ldkey _ | ldblk _ => exact .inr (.inr ⟨rfl, rfl⟩)
  | clrerr => exact .inr (.inl rfl)
  | enc | dec =>
    by_cases hload : s.keyv = true ∧ s.blkv = true
    · exact .inr (.inr (afterCommand_error_elements (.inr ⟨by simp, hload⟩)))
    · exact .inl (exists_errorCause_of_not_loaded (by simp) (by simpa only [not_and_or, Bool.not_eq_true] using hload))
  | _ => exact .inl (exists_errorCause_of_reserved s (by decide))

theorem edge_error_changes {p : PortIn} {s t : State} (h : edge p s = .next t) (hr : p.rst = false)
    (hne : t.err ≠ s.err ∨ t.errCode ≠ s.errCode) :
    (t = raiseError t.errCode s ∧ ∃ i, arbitrate p s.busy = .accept i) ∨
    (t.err = false ∧ t.errCode = .none ∧ arbitrate p s.busy = .accept .clrerr) := by
  rcases edge_error_cases h with ⟨_, herr, hcode⟩ | ⟨hrst, _⟩ | ⟨i, hacc, rfl⟩
  · exact absurd hne (by simp [herr, hcode])
  · simp [hr] at hrst
  · rcases afterCommand_raises_or_clears_or_keeps_error i s with ⟨c, hc⟩ | rfl | ⟨herr, hcode⟩
    · have hraise : afterCommand i s = raiseError c s := by
        simpa [exec_eq] using exec_of_errorCause hc
      rw [hraise]
      exact .inl ⟨(raiseError_raiseError_errCode c s).symm, i, hacc⟩
    · exact .inr ⟨rfl, rfl, hacc⟩
    · exact absurd hne (by simp [herr, hcode])

/-! KEYV and BLKV (R32) -/

/-- An edge without reset and without a command leaves KEYV and BLKV as they are. -/
theorem edge_valid_flags_cases {p : PortIn} {s t : State} (h : edge p s = .next t) (hr : p.rst = false) :
    (t.keyv = s.keyv ∧ t.blkv = s.blkv) ∨ ∃ i, arbitrate p s.busy = .accept i ∧ t = afterCommand i s := by
  rcases edge_next h with
    ⟨hrst, _⟩ | ⟨_, _, _, _, rfl⟩ | ⟨_, _, _, rfl⟩ | ⟨_, _, _, hacc, ht⟩ | ⟨_, _, _, rfl⟩
  · simp [hr] at hrst
  · exact .inl ⟨rfl, rfl⟩
  · exact .inl ⟨rfl, rfl⟩
  · exact .inr ⟨_, hacc, ht⟩
  · exact .inl ⟨rfl, rfl⟩

theorem edge_keyv_changes {p : PortIn} {s t : State} (h : edge p s = .next t) (hr : p.rst = false)
    (hne : t.keyv ≠ s.keyv) : t.keyv = true ∧ ∃ key, arbitrate p s.busy = .accept (.ldkey key) := by
  rcases edge_valid_flags_cases h hr with ⟨hkeep, _⟩ | ⟨i, hacc, rfl⟩
  · exact absurd hkeep hne
  · by_cases hi : ∃ key, i = .ldkey key
    · obtain ⟨key, rfl⟩ := hi
      exact ⟨rfl, key, hacc⟩
    · obtain ⟨_, _, hkeep⟩ := afterCommand_key_elements (not_exists.1 hi) s
      exact absurd hkeep hne

theorem edge_blkv_changes {p : PortIn} {s t : State} (h : edge p s = .next t) (hr : p.rst = false)
    (hne : t.blkv ≠ s.blkv) : t.blkv = true ∧ ∃ blk, arbitrate p s.busy = .accept (.ldblk blk) := by
  rcases edge_valid_flags_cases h hr with ⟨_, hkeep⟩ | ⟨i, hacc, rfl⟩
  · exact absurd hkeep hne
  · by_cases hi : ∃ blk, i = .ldblk blk
    · obtain ⟨blk, rfl⟩ := hi
      exact ⟨rfl, blk, hacc⟩
    · obtain ⟨_, hkeep⟩ := afterCommand_block_elements (not_exists.1 hi) s
      exact absurd hkeep hne

/-- Settles O28: each change is traced to its event by the lemmas above, and each event's edge has one next state,
which shows its effect. -/
theorem flagsChangeOnlyByTheirEvents : Obligations.FlagsChangeOnlyByTheirEvents := by
  refine ⟨fun p s t h hr => ⟨fun hbusy => ?_, fun hdone => ?_, edge_error_changes h hr, edge_keyv_changes h hr,
    edge_blkv_changes h hr⟩, fun p s t h => ⟨fun hstart hk hb => ?_, fun hstage h17 => ?_, fun hacc => ?_,
    fun key hacc => ?_, fun blk hacc => ?_⟩, fun p s t h hr => ?_, fun s hs => hs.not_busy_done⟩
  · rcases edge_busy_done_cases h hr with hstart | ⟨hb, hd, _, h17⟩ | ⟨hkeep, _⟩
    · exact .inl hstart
    · exact .inr ⟨hb, hd, h17⟩
    · exact absurd hkeep hbusy
  · rcases edge_busy_done_cases h hr with ⟨hb, hd, _, _, hstart⟩ | ⟨_, hd, hb, h17⟩ | ⟨_, hkeep⟩
    · exact .inl ⟨hd, hb, hstart⟩
    · exact .inr ⟨hd, hb, h17⟩
    · exact absurd hkeep hdone
  · obtain ⟨d, hd⟩ := edge_of_start hstart hk hb
    cases hd.symm.trans h
    exact ⟨rfl, rfl⟩
  · cases ((edge_of_stage hstage).trans (performStage_final s h17)).symm.trans h
    exact ⟨rfl, rfl⟩
  · cases (edge_of_accept hacc).symm.trans h
    exact ⟨rfl, rfl⟩
  · cases (edge_of_accept hacc).symm.trans h
    rfl
  · cases (edge_of_accept hacc).symm.trans h
    rfl
  · cases (edge_of_reset s hr).symm.trans h
    exact ⟨rfl, rfl, rfl, rfl, rfl, rfl⟩

/-! DOUT and TRACE (R30, 20_memory.md R61) -/

/-- Reset apart, the FP stage alone writes DOUT. -/
theorem edge_keeps_dout {p : PortIn} {s t : State} (h : edge p s = .next t) (hr : p.rst = false)
    (hfp : ¬ (s.busy = true ∧ s.stage.val = 17)) : t.dout = s.dout := by
  rcases edge_next h with
    ⟨hrst, _⟩ | ⟨_, _, _, _, rfl⟩ | ⟨_, hb, h17, _⟩ | ⟨_, _, _, _, rfl⟩ | ⟨_, _, _, rfl⟩
  · simp [hr] at hrst
  · rfl
  · exact absurd ⟨hb, h17⟩ hfp
  · exact afterCommand_dout _ s
  · rfl

/-- An idle machine keeps DONE and TRACE, or it accepts a start that runs. -/
theorem edge_idle_keeps_done_trace {p : PortIn} {s t : State} (h : edge p s = .next t) (hr : p.rst = false)
    (hidle : s.busy = false) : (t.done = s.done ∧ t.trace = s.trace) ∨ (t.busy = true ∧ AcceptsStart p s) := by
  rcases edge_next h with
    ⟨hrst, _⟩ | ⟨_, hb, _⟩ | ⟨_, hb, _⟩ | ⟨_, _, _, hacc, rfl⟩ | ⟨_, _, _, rfl⟩
  · simp [hr] at hrst
  · simp [hidle] at hb
  · simp [hidle] at hb
  · rcases afterCommand_begins_or_keeps_run (decode (commandWord p.cmdOp p.cmdData)) s with
      ⟨hi, _, _, d, hd⟩ | ⟨_, hdone, _, htrace⟩
    · rw [hd]
      exact .inr ⟨rfl, acceptsStart_iff.2 ⟨_, hi, hacc⟩⟩
    · exact .inl ⟨hdone, htrace⟩
  · exact .inl ⟨rfl, rfl⟩

/-- Settles O30: a legal state with DONE = 1 is idle, and an idle edge writes neither DOUT nor, without a start,
TRACE. -/
theorem resultIsHeldUntilTheNextRunOrReset : Obligations.ResultIsHeldUntilTheNextRunOrReset := by
  refine fun p s t h hr => ⟨edge_keeps_dout h hr, fun hs hdone => ?_⟩
  have hidle : s.busy = false := Bool.eq_false_iff.2 fun hb => hs.not_busy_done ⟨hb, hdone⟩
  refine ⟨edge_keeps_dout h hr (by simp [hidle]), ?_⟩
  exact (edge_idle_keeps_done_trace h hr hidle).imp_left fun ⟨hd, htrace⟩ => ⟨hd.trans hdone, htrace⟩

end Sys2Proof.Machine
end

section
/-! SUPPORT. How long a run takes: a busy edge performs one stage, so the run is over after the stages that are left
(44_commands.md R190, 70_reset_and_hazards.md R262). -/

namespace Sys2Proof.Machine

/-- One stage of a run: the next one is due, or the run is over. -/
theorem performStage_progress {s : State} (hb : s.busy = true) (h1 : 1 ≤ s.stage.val) :
    ∃ t, performStage s = .next t ∧ t.host = s.host ∧
      (s.stage.val < 17 → t.busy = true ∧ t.stage.val = s.stage.val + 1) ∧
      (s.stage.val = 17 → t.busy = false ∧ t.done = true) := by
  rcases stage_cases s.stage with h0 | ⟨i, hi⟩ | h17
  · omega
  · exact ⟨_, performStage_round i s hi, rfl, fun _ => ⟨hb, by simp [hi]⟩, by omega⟩
  · exact ⟨_, performStage_final s h17, rfl, by omega, fun _ => ⟨rfl, rfl⟩⟩

/-- Edges without reset in a run: it is still going on before its last stage, and over after it. -/
theorem edges_of_busy {s : State} (hb : s.busy = true) (h1 : 1 ≤ s.stage.val) {ps : List PortIn}
    (hps : ∀ p ∈ ps, p.rst = false) (hlen : s.stage.val + ps.length ≤ 18) :
    ∃ t, edges ps s = .next t ∧ (t.busy = true ↔ s.stage.val + ps.length < 18) := by
  induction ps generalizing s with
  | nil => exact ⟨s, rfl, by simp [hb]⟩
  | cons p ps ih =>
    obtain ⟨hp, hps⟩ := List.forall_mem_cons.1 hps
    rw [List.length_cons] at hlen ⊢
    obtain ⟨u, hu, _, hnext, hlast⟩ := performStage_progress hb h1
    simp only [edges, edge_of_busy hp hb, hu]
    rcases Nat.lt_or_ge s.stage.val 17 with hlt | hge
    · obtain ⟨hub, hus⟩ := hnext hlt
      obtain ⟨t, ht, hiff⟩ := ih hub (by omega) hps (by omega)
      exact ⟨t, ht, by rw [hiff]; omega⟩
    · obtain ⟨hub, _⟩ := hlast (by omega)
      obtain rfl : ps = [] := List.eq_nil_of_length_eq_zero (by omega)
      exact ⟨u, rfl, iff_of_false (by simp [hub]) (by rw [List.length_nil]; omega)⟩

/-- With no run in progress, a command leaves one exactly when it is a start on a loaded key and block. -/
theorem afterCommand_busy_iff {s : State} (hidle : s.busy = false) (i : Instr) :
    (afterCommand i s).busy = true ↔ i ∈ [Instr.enc, Instr.dec] ∧ s.keyv = true ∧ s.blkv = true := by
  constructor
  · intro hbusy
    rcases afterCommand_begins_or_keeps_run i s with ⟨hi, hk, hb, _⟩ | ⟨hkeep, _⟩
    · exact ⟨hi, hk, hb⟩
    · simp [hkeep, hidle] at hbusy
  · rintro ⟨hi, hk, hb⟩
    obtain ⟨d, hd⟩ := afterCommand_of_start hi hk hb
    rw [hd]
    rfl

/-- Settles O34: a start stands at stage 1, so its run is over after 17 edges and not before; the machine is ready
then, and takes the command offered. -/
theorem runTakesEighteenSteps : Obligations.RunTakesEighteenSteps := by
  refine ⟨fun i s t hexec hidle => ?_, fun s s1 i hi hk hb hexec ps q hps hq hlen => ?_⟩
  · rw [exec_eq] at hexec
    cases hexec
    exact afterCommand_busy_iff hidle i
  · obtain ⟨d, hd⟩ := exists_start_direction hi
    cases (exec_start_of_loaded hd hk hb).symm.trans hexec
    have hstage : (beginRun d s).stage.val = 1 := rfl
    obtain ⟨t, ht, hiff⟩ := edges_of_busy (s := beginRun d s) rfl (by omega) hps (by omega)
    have hidle : t.busy = false ↔ ps.length = 17 := by
      rw [← Bool.not_eq_true, hiff]
      omega
    refine ⟨t, ht, ?_, fun h17 hv => edge_of_command hq (hidle.2 h17) hv⟩
    rw [cmdReady_iff, hidle]
    simp [hq]

end Sys2Proof.Machine
end

section
/-! SUPPORT. The host's script at the step: a host that waits, offers, skips a line, or drives a placed word
(30_encoding.md R80, R82, 44_commands.md R190). -/

namespace Sys2Proof.Machine

/-! A host in a run -/

/-- The host's next action drives no reset and stays in its script: in a run, the step is the stage alone. -/
theorem step_of_busy {s : State} {p : PortIn} (hb : s.busy = true) (hr : p.rst = false)
    (h : hostDrive true s.host = (p, s.host)) : step s = performStage s := by
  rw [step_of_hostDrive (hb ▸ h)]
  exact edge_of_busy hr hb

/-- WAITDONE stays at the head of the script through the stages that are left. -/
theorem run_of_waitDone {n : Nat} {s : State} {rest : List HostAction} (hb : s.busy = true) (h1 : 1 ≤ s.stage.val)
    (hhost : s.host = .waitDone :: rest) (hn : s.stage.val + n = 18) :
    ∃ t, Host.Core.run core n s = .next t ∧ t.busy = false ∧ t.done = true ∧ t.host = s.host := by
  induction n generalizing s with
  | zero => omega
  | succ n ih =>
    obtain ⟨u, hu, huhost, hnext, hlast⟩ := performStage_progress hb h1
    have hstep : core.step s = .next u :=
      (step_of_busy (p := .quiet) hb rfl (by rw [hhost, hostDrive_waitDone_busy])).trans hu
    simp only [Host.Core.run, hstep]
    rcases Nat.lt_or_ge s.stage.val 17 with hlt | hge
    · obtain ⟨hub, hus⟩ := hnext hlt
      rw [← huhost]
      exact ih hub (by omega) (huhost.trans hhost) (by omega)
    · obtain rfl : n = 0 := by omega
      obtain ⟨hub, hud⟩ := hlast (by omega)
      exact ⟨u, rfl, hub, hud, huhost⟩

/-- Settles O35: a legal run has STAGE of 1..17, so 18 - STAGE stages are left. -/
theorem waitdoneReachesDone : Obligations.WaitdoneReachesDone := by
  intro s rest hs hb hhost
  obtain ⟨h1, h17⟩ := hs.stage_val_of_busy hb
  exact run_of_waitDone hb h1 hhost (by omega)

/-- Settles O11: a busy edge without reset is the stage, whatever is offered, and the offer stays in the script. -/
theorem commandsAreNotTakenWhileBusy : Obligations.CommandsAreNotTakenWhileBusy := by
  refine ⟨fun p q s hb hp hq => ⟨by simp [cmdReady, hb], ?_⟩, fun s op data rest hb hhost => ?_⟩
  · rw [edge_of_busy hp hb, edge_of_busy hq hb]
  · exact step_of_busy (p := .command op data) hb rfl (by rw [hhost, hostDrive_offer_busy])

/-! Offers, driven ports and placed words (R80; log entry 4) -/

/-- Settles O7: the host drives its offer or its port values, and the machine's edge takes them. -/
theorem stepRunsDecodedInstruction : Obligations.StepRunsDecodedInstruction := by
  refine ⟨fun s op data rest i hidle hhost hdec => ?_, fun s p rest hhost => ?_⟩
  · have hdrive : hostDrive s.busy s.host = (.command op data, rest) := by
      rw [hidle, hhost, hostDrive_offer_ready]
    rw [step_of_hostDrive hdrive, ← hdec]
    exact edge_of_command rfl hidle rfl
  · exact step_of_hostDrive (by rw [hhost, hostDrive_drive])

theorem decodeWord_eq_ok {w : Nat} {i : Instr} (h : decodeWord w = .ok i) : decode (BitVec.ofNat 68 w) = i := by
  rw [decodeWord] at h
  split at h
  · exact Except.ok.inj h
  · cases h

theorem decodeWord_of_decodeTableWord {nbits w : Nat} {i : Instr} (h : decodeTableWord nbits w = some i) :
    decodeWord (w % 2 ^ nbits) = .ok i := by
  rw [decodeTableWord] at h
  split at h
  case h_1 j hj => rw [hj, Option.some.inj h]
  case h_2 => cases h

/-- Settles O6: the placed word is an offer of the fields it is made of, at an idle machine. -/
theorem placedWordRunsAtTheNextStep : Obligations.PlacedWordRunsAtTheNextStep := by
  intro nbits w i s h
  have hdec := decodeWord_eq_ok (decodeWord_of_decodeTableWord h)
  rw [withFetchWord_eq]
  exact stepRunsDecodedInstruction.1 _ _ _ _ i rfl (offerWord_host _ s) (by rw [commandWord_fields, hdec])

/-! The other lines of a script (R81, R82; log entry 7) -/

theorem exists_value_of_wf {o : Operand64} (h : o.wf = true) : ∃ v, o.value = .ok v := by
  cases o with
  | hex digits => exact ⟨_, if_pos h⟩
  | text codes => exact ⟨_, if_pos h⟩

/-- A line whose script head the host skips takes no step of its own. -/
theorem step_of_skipped {s : State} {host host' : List HostAction}
    (h : hostDrive s.busy host = hostDrive s.busy host') : step { s with host := host } =
    step { s with host := host' } := by
  rw [step_of_hostDrive (s := { s with host := host }) h]
  rfl

/-- Settles O57: the operands have values, from which both scripts compute alike; the other lines are read off what
the host drives for them. -/
theorem pseudoLinesExpand : Obligations.PseudoLinesExpand := by
  refine ⟨fun key blk hkey hblk => ?_, fun s rest o v => ⟨step_of_skipped (hostDrive_expect _ _ _ _),
    step_of_skipped (hostDrive_idle_zero _ _), fun hidle => step_of_skipped ?_⟩, fun s rest n hidle => ?_,
    fun s rest n hb => ⟨?_, ?_⟩⟩
  · obtain ⟨k, hk⟩ := exists_value_of_wf hkey
    obtain ⟨b, hb⟩ := exists_value_of_wf hblk
    refine ⟨k, b, hk, hb, ?_, ?_, ?_⟩ <;> simp [scriptActions, ScriptLine.actions, runActions, offerOperand, hk, hb]
  · rw [hidle, hostDrive_waitDone_ready]
  · rw [step_of_hostDrive (s := { s with host := .idle (n + 1) :: rest }) (hostDrive_idle_succ _ _ _)]
    exact edge_of_quiet rfl hidle rfl
  · exact step_of_busy (p := .quiet) hb rfl (hostDrive_waitDone_busy rest)
  · rw [step_of_hostDrive (s := { s with host := .idle (n + 1) :: rest }) (hostDrive_idle_succ _ _ _)]
    exact edge_of_busy rfl hb

end Sys2Proof.Machine
end

section
/-! SUPPORT. The tables, the choice of a round's key, the layout of STATUS and the order of bytes and halves
(40_permutation.md R105 to R110, 41_key_schedule.md R125, 10_state.md R31, 20_memory.md R56). -/

namespace Sys2Proof.Machine

/-! The constant tables (R105, R108, R110, R141) -/

/-- Settles O38: each table undoes the other. -/
theorem finalPermutationInvertsInitial : Obligations.FinalPermutationInvertsInitial := fun v =>
  ⟨permute_fpTable_ipTable v, permute_ipTable_fpTable v⟩

theorem shiftCount_eq_one_iff (i : Fin 16) : shiftCount i = 1 ↔ i.val + 1 ∈ [1, 2, 9, 16] := by
  revert i; decide

theorem sboxes_row_surjective (b : Fin 8) (row : Fin 4) (v : BitVec 4) : ∃ col : Fin 16, sboxes[b][row][col] = v := by
  revert b row v; decide +kernel

/-- Settles O39: each property is a finite fact about its table. -/
theorem constantTablesHaveTheirProperties : Obligations.ConstantTablesHaveTheirProperties :=
  ⟨by decide, shiftCount_eq_one_iff, rfl, pc1Table_selects_no_multiple_of_eight, sboxes_row_surjective⟩

/-! The key of a round (R125) -/

/-- Settles O43: encryption takes the subkeys in order, decryption at the mirrored index. -/
theorem roundKeySelection : Obligations.RoundKeySelection := by
  intro sk r h1 h
  have hmirror : 16 - (r - 1 + 1) = 16 - r := by omega
  exact ⟨rfl, by simp only [roundKey, Fin.getElem_fin, Fin.val_rev, hmirror]⟩

/-! STATUS (R31) -/

theorem statusWord_flags (s : State) :
    (statusWord s)[0] = s.busy ∧ (statusWord s)[1] = s.done ∧ (statusWord s)[2] = s.err ∧
    (statusWord s)[3] = s.dir.bit ∧ (statusWord s)[9] = s.blkv ∧ (statusWord s)[15] = false := by
  simp only [statusWord, ← BitVec.getLsbD_eq_getElem, BitVec.getLsbD_append]
  simp

theorem statusWord_errCode (s : State) : (statusWord s).extractLsb' 4 4 = s.errCode.bits := by
  rw [statusWord]
  simp (disch := decide) only [BitVec.extractLsb'_append_eq_of_le, BitVec.extractLsb'_append_eq_of_add_le]
  exact BitVec.extractLsb'_eq_self

theorem statusWord_stage (s : State) : (statusWord s).extractLsb' 10 5 = stageBits s.stage := by
  rw [statusWord]
  simp (disch := decide) only [BitVec.extractLsb'_append_eq_of_le, BitVec.extractLsb'_append_eq_of_add_le]
  exact BitVec.extractLsb'_eq_self

/-- Five bits hold every stage number (R27). -/
theorem toNat_stageBits (stage : Fin 18) : (stageBits stage).toNat = stage.val := by
  revert stage; decide

theorem errCode_bits_le (c : ErrCode) : c.bits.toNat ≤ 3 := by
  cases c <;> decide

theorem errCode_bits_eq_zero_iff (c : ErrCode) : c.bits = 0 ↔ c = .none := by
  cases c <;> decide

/-- Settles O49: every field is its slice of the word, and a legal state's code is 0 without an error. -/
theorem statusWordLayout : Obligations.StatusWordLayout := by
  intro s
  obtain ⟨hbusy, hdone, herr, hdir, hblkv, hreserved⟩ := statusWord_flags s
  refine ⟨hbusy, hdone, herr, hdir, statusWord_errCode s, statusWord_bit_eight s, hblkv, ?_, hreserved,
    errCode_bits_le s.errCode, Nat.le_of_lt_succ s.stage.isLt, fun hs => ?_⟩
  · rw [statusWord_stage, toNat_stageBits]
  · rw [errCode_bits_eq_zero_iff, hs.err_code]

/-! Bytes and halves (R56) -/

/-- A slice of a value, in DES bits: its bit i + 1 is as far from the value's last bit as the slice says. -/
theorem desBit_extractLsb' {n w start i : Nat} (v : BitVec n) (hi : i < w) (h : start + w ≤ n) :
    desBit (v.extractLsb' start w) (i + 1) = desBit v (n - start - w + i + 1) := by
  have hin : start + w - i ≤ n := by omega
  have hpos : n - (start + w - i) = n - start - w + i := by omega
  simp [desBit, BitVec.getMsbD_extractLsb', hi, hin, hpos]

/-- Settles O51: a byte and a half are slices of the value, and the two halves are all of it. -/
theorem bytesAndHalvesAreBigEndian : Obligations.BytesAndHalvesAreBigEndian := by
  refine ⟨fun v k i => ?_, fun v i => ⟨?_, ?_⟩, leftHalf_append_rightHalf⟩
  · rw [blockByte, desBit_extractLsb' v i.isLt (by omega), show 64 - (56 - 8 * k.val) - 8 = 8 * k.val by omega]
  · rw [leftHalf, desBit_extractLsb' v i.isLt (by decide)]
    simp
  · rw [rightHalf, desBit_extractLsb' v i.isLt (by decide), Nat.add_comm _ i.val]

end Sys2Proof.Machine
end
